-- ==== Sys2Proof/Word.lean ====
section
/-! DEFINITION. The bit widths the manual speaks of: bytes, 16-bit and 32-bit words (00 section 1.5). -/

namespace Sys2Proof

/-- One byte of a record, of the slot bus or of host memory. -/
abbrev Byte := BitVec 8

/-- What stands on the sixteen data lines of the slot bus; the byte of the even address is the low half (R4). -/
abbrev BusWord := BitVec 16

/-- One of the operand words of a request record, or one word of a table entry (R174). -/
abbrev Word := BitVec 32

end Sys2Proof
end

