-- ==== Sys2Proof/Syntax.lean ====
section
/-! DEFINITION. The commands of the block: one constructor for each row of spec/opcode_table.json, in the table's order, with
the types their operands have. A command of the sequencer carries no operand of its own: the record in flight holds them (R36). -/

namespace Sys2Proof

/-- The seven DMA channels, numbered as the cards' jumpers number them (00 section 1.5). -/
inductive Chan where
  | c0 | c1 | c2 | c3 | c5 | c6 | c7
deriving DecidableEq, Repr

/-- The eleven slot interrupt lines (00 section 1.5). -/
inductive Line where
  | l3 | l4 | l5 | l6 | l7 | l9 | l10 | l11 | l12 | l14 | l15
deriving DecidableEq, Repr

/-- The queued request kinds (R39, R174). -/
inductive ReqKind where
  | portRead | portWrite | memoryRead | memoryWrite | streamIn | streamOut | slotReset | fence
  | channelProgram | channelNext | channelMask | channelRequest | channelStatus
  | lineSet | lineMask | lineEnd | linePoll
  | tableWrite | tableRead | tableClear | partReset | identify
deriving DecidableEq, Repr

/-- A request record of a queued kind, as host software wrote it (R174). -/
structure Record where
  kind  : ReqKind
  tag   : Byte
  flags : Byte
  sub   : Byte
  addr  : Word
  value : Word
  mask  : Word
deriving DecidableEq, Repr

/-- How a host read ends (R113, R114): with its bytes, lowest host address first, or with an error. -/
inductive ReadResult where
  | data (bytes : List Byte)
  | error
deriving DecidableEq, Repr

/-- What heads a record of a write to the request port: `more` says that another record of the same write follows, since the write is one
event (R160, log entry 49). -/
structure Written (α : Type) where
  value : α
  more  : Bool
deriving DecidableEq, Repr

/-- The commands: the rows of spec/opcode_table.json. -/
inductive Instr where
  | linkReset
  | apertureWriteIgnored (offset : BitVec 12)
  | malformed (offset : BitVec 12) (enables : List Bool)
  | unknown (kind : Written Byte)
  | queuedKindAppend (r : Written Record)
  | ringSet (tag : Written Byte) (base : BitVec 64) (size : Word)
  | ringCredit (tag : Written Byte) (respond arm clearFault : Bool) (number : BitVec 16)
  | queueHalt (tag : Written Byte) (respond : Bool)
  | queueResume (tag : Written Byte) (respond : Bool)
  | queueAbort (tag : Written Byte)
  | portRead
  | portWrite
  | memoryRead
  | memoryWrite
  | streamIn
  | streamOut
  | slotReset
  | fence
  | channelProgram
  | channelNext
  | channelMaskSet
  | channelMaskClear
  | channelRequestSet
  | channelRequestClear
  | channelStatus
  | lineSet
  | lineMaskSet
  | lineMaskClear
  | lineEndSpecific
  | lineEndNonSpecific
  | linePoll
  | tableWriteWindow
  | tableWriteMap
  | tableWriteSegment
  | tableWriteSettings
  | tableRead
  | tableClear
  | partReset
  | identify
  | slotClockApply
  | hostCycleEnd (sense ready : Bool) (data : BusWord)
  | unitCycleEnd (ready : Bool) (data : BusWord)
  | refreshCycleEnd (ready : Bool)
  | readyRelease (data : BusWord)
  | readyLimitExpiry
  | cardCheckEdge (between : Bool)
  | resetDurationEnd
  | settleEnd
  | refreshTimerExpiry
  | masterHoldLimit
  | dmaRequestRise (c : Chan)
  | dmaRequestFall (c : Chan)
  | stagingAgeLimit (c : Chan)
  | hostWriteIssue
  | prefetchReadForm (c : Chan)
  | prefetchReadComplete (c : Chan) (id : Nat) (r : ReadResult)
  | masterWriteCycle (addr : BitVec 24) (wide : Bool) (data : BusWord)
  | masterHeldWritePost
  | masterWriteDecide
  | masterReadCycle (addr : BitVec 24) (wide : Bool)
  | lineFillComplete (r : ReadResult)
  | interruptLineRise (l : Line)
  | interruptLineFall (l : Line)
  | streamStep
  | streamReadForm
  | streamReadComplete (id : Nat) (r : ReadResult)
  | returnRecordWrite
deriving DecidableEq, Repr

end Sys2Proof
end

