-- ==== Sys2Proof/Decode.lean ====
section
/-! DEFINITION. What a write to the aperture spells: request kind codes and the layout of a request record (R174), the pieces
of a write to the request port (R160), and the host's table decoder. The opcode table gives no row any bits. -/

namespace Sys2Proof

/-- The codes of the queued kinds ("Kind codes and status codes", R174). -/
def ReqKind.code : ReqKind → Byte
  | .portRead => 0x01 | .portWrite => 0x02 | .memoryRead => 0x03 | .memoryWrite => 0x04
  | .streamIn => 0x05 | .streamOut => 0x06 | .slotReset => 0x07 | .fence => 0x08
  | .channelProgram => 0x10 | .channelNext => 0x11 | .channelMask => 0x12
  | .channelRequest => 0x13 | .channelStatus => 0x14
  | .lineSet => 0x18 | .lineMask => 0x19 | .lineEnd => 0x1A | .linePoll => 0x1B
  | .tableWrite => 0x20 | .tableRead => 0x21 | .tableClear => 0x22
  | .partReset => 0x28 | .identify => 0x29

/-- Every queued kind, in code order. -/
def ReqKind.all : List ReqKind :=
  [.portRead, .portWrite, .memoryRead, .memoryWrite, .streamIn, .streamOut, .slotReset, .fence,
   .channelProgram, .channelNext, .channelMask, .channelRequest, .channelStatus,
   .lineSet, .lineMask, .lineEnd, .linePoll,
   .tableWrite, .tableRead, .tableClear, .partReset, .identify]

/-- The queued kind a kind byte names, if it names one. -/
def ReqKind.ofCode (b : Byte) : Option ReqKind := ReqKind.all.find? (fun k => k.code = b)

/-- Codes of the intake-only kinds (R174). -/
def ringSetCode : Byte := 0x30
def ringCreditCode : Byte := 0x31
def queueHaltCode : Byte := 0x32
def queueResumeCode : Byte := 0x33
def queueAbortCode : Byte := 0x34

/-- A kind byte that names a request kind; any other is UNKNOWN (R160). -/
def knownKind (b : Byte) : Bool :=
  (ReqKind.ofCode b).isSome ||
    [ringSetCode, ringCreditCode, queueHaltCode, queueResumeCode, queueAbortCode].contains b

/-- Four bytes as a little-endian word (00 section 1.5). -/
def leWord (b0 b1 b2 b3 : Byte) : Word := b3 ++ b2 ++ b1 ++ b0

/-- A word as four bytes, least significant first. -/
def wordBytes (w : Word) : List Byte :=
  [w.extractLsb' 0 8, w.extractLsb' 8 8, w.extractLsb' 16 8, w.extractLsb' 24 8]

/-- The sixteen bytes of a request record (R174). -/
def Record.encode (r : Record) : List Byte :=
  [r.kind.code, r.tag, r.flags, r.sub] ++ wordBytes r.addr ++ wordBytes r.value ++ wordBytes r.mask

/-- The command one sixteen-byte piece of a write to the request port spells, by its kind byte (R160, R174). `more`: another piece of the
write follows. -/
def decodeRecord (more : Bool) (bytes : List Byte) : Instr :=
  let b := fun i => bytes.getD i 0
  let addr := leWord (b 4) (b 5) (b 6) (b 7)
  let value := leWord (b 8) (b 9) (b 10) (b 11)
  let mask := leWord (b 12) (b 13) (b 14) (b 15)
  let respond := (b 2).getLsbD 0
  match ReqKind.ofCode (b 0) with
  | some k => .queuedKindAppend ⟨⟨k, b 1, b 2, b 3, addr, value, mask⟩, more⟩
  | none =>
    if b 0 = ringSetCode then .ringSet ⟨b 1, more⟩ (value ++ addr) mask
    else if b 0 = ringCreditCode then
      .ringCredit ⟨b 1, more⟩ respond ((b 2).getLsbD 1) ((b 2).getLsbD 2) (addr.extractLsb' 0 16)
    else if b 0 = queueHaltCode then .queueHalt ⟨b 1, more⟩ respond
    else if b 0 = queueResumeCode then .queueResume ⟨b 1, more⟩ respond
    else if b 0 = queueAbortCode then .queueAbort ⟨b 1, more⟩
    else .unknown ⟨b 0, more⟩

/-- A write that touches the request port, 000h-7FFh (R159). -/
def touchesPort (offset : BitVec 12) : Bool := offset.toNat < 0x800

/-- A write that covers exactly one or more aligned 16-byte pieces of 000h-7FFh, every byte written (R160). -/
def wholePieces (offset : BitVec 12) (enables : List Bool) : Bool :=
  offset.toNat % 16 = 0 && enables.length % 16 = 0 && enables.length ≠ 0 &&
    enables.all id && offset.toNat + enables.length ≤ 0x800

/-- The first `n` sixteen-byte pieces of a write. -/
def pieces : Nat → List Byte → List (List Byte)
  | 0, _ => []
  | n + 1, bs => bs.take 16 :: pieces n (bs.drop 16)

/-- The records of one write, in order: each but the last says that another follows (R160). -/
def decodeRecords : List (List Byte) → List Instr
  | [] => []
  | [p] => [decodeRecord false p]
  | p :: ps => decodeRecord true p :: decodeRecords ps

/-- The commands one write to the aperture amounts to, in address order (R159, R160). A byte that is not enabled is `none`. The records of
a write are one event, spelled as commands that stand together (log entry 49). -/
def decodeWrite (offset : BitVec 12) (bytes : List (Option Byte)) : List Instr :=
  if touchesPort offset then
    if wholePieces offset (bytes.map Option.isSome) then
      decodeRecords (pieces (bytes.length / 16) (bytes.map (fun b => b.getD 0)))
    else [.malformed offset (bytes.map Option.isSome)]
  else [.apertureWriteIgnored offset]

/-- The command a word spells by the table's bits: spec/opcode_table.json gives no row any bits, so none. -/
def decodeTableWord (_nbits _w : Nat) : Option Instr := none

end Sys2Proof
end

