-- ==== Sys2Proof/Config.lean ====
section
/-! DEFINITION. The capacities the manual fixes. No value of this board is left to an implementation, so nothing here is open. -/

namespace Sys2Proof.Config

/-- Records the request queue holds (R35). -/
def queueCapacity : Nat := 64

/-- Entries the list of control answers holds (R46). -/
def controlCapacity : Nat := 16

/-- Bytes of one channel's staging buffer (R104). -/
def stagingBytes : Nat := 256

/-- Bytes of the stream buffer (R151). -/
def streamBytes : Nat := 512

/-- Longest host transfer of a stream (R154, R155). -/
def streamPiece : Nat := 64

/-- Entries of the master write buffer (R119). -/
def masterEntries : Nat := 16

/-- Bytes of the master read line (R119). -/
def lineBytes : Nat := 32

/-- Bytes of a host frame and of a legacy frame (00 section 1.5). -/
def frameBytes : Nat := 4096

/-- Refresh cycles the generator can owe (R65). -/
def refreshOwedMax : Nat := 4

end Sys2Proof.Config
end

