-- ==== Sys2Proof/Machine/State.lean ====
section
/-! DEFINITION. The state of the board, block by block (00 section 1.2), as plain data, and its value after link reset. -/

namespace Sys2Proof.Machine

/-! ## Why a step could stop -/

/-- Why the board stops. The manual describes no event that stops it: every fault it names is a state or a record the board
goes on with, so this type has no constructor and no step faults (log entry 1). -/
inductive Fault where
deriving DecidableEq, Repr

/-- Why a command has no meaning here. -/
inductive Refusal where
  /-- Raised by an arm of `exec` whose row has no meaning yet; safe, since nothing is claimed of it. No arm raises it. -/
  | notModelled (mnemonic : String)
deriving DecidableEq, Repr

/-! ## One thing per channel, one thing per line -/

/-- One `α` for each DMA channel. -/
structure PerChan (α : Type) where
  c0 : α
  c1 : α
  c2 : α
  c3 : α
  c5 : α
  c6 : α
  c7 : α
deriving DecidableEq, Repr

def PerChan.get {α : Type} (p : PerChan α) : Chan → α
  | .c0 => p.c0 | .c1 => p.c1 | .c2 => p.c2 | .c3 => p.c3 | .c5 => p.c5 | .c6 => p.c6 | .c7 => p.c7

def PerChan.put {α : Type} (p : PerChan α) (c : Chan) (v : α) : PerChan α :=
  match c with
  | .c0 => { p with c0 := v } | .c1 => { p with c1 := v } | .c2 => { p with c2 := v }
  | .c3 => { p with c3 := v } | .c5 => { p with c5 := v } | .c6 => { p with c6 := v }
  | .c7 => { p with c7 := v }

def PerChan.const {α : Type} (v : α) : PerChan α := ⟨v, v, v, v, v, v, v⟩

/-- One `α` for each interrupt line. -/
structure PerLine (α : Type) where
  l3 : α
  l4 : α
  l5 : α
  l6 : α
  l7 : α
  l9 : α
  l10 : α
  l11 : α
  l12 : α
  l14 : α
  l15 : α
deriving DecidableEq, Repr

def PerLine.get {α : Type} (p : PerLine α) : Line → α
  | .l3 => p.l3 | .l4 => p.l4 | .l5 => p.l5 | .l6 => p.l6 | .l7 => p.l7 | .l9 => p.l9
  | .l10 => p.l10 | .l11 => p.l11 | .l12 => p.l12 | .l14 => p.l14 | .l15 => p.l15

def PerLine.put {α : Type} (p : PerLine α) (l : Line) (v : α) : PerLine α :=
  match l with
  | .l3 => { p with l3 := v } | .l4 => { p with l4 := v } | .l5 => { p with l5 := v }
  | .l6 => { p with l6 := v } | .l7 => { p with l7 := v } | .l9 => { p with l9 := v }
  | .l10 => { p with l10 := v } | .l11 => { p with l11 := v } | .l12 => { p with l12 := v }
  | .l14 => { p with l14 := v } | .l15 => { p with l15 := v }

def PerLine.const {α : Type} (v : α) : PerLine α := ⟨v, v, v, v, v, v, v, v, v, v, v⟩

/-! ## Tables -/

/-- A table entry: four 32-bit words (11, "Table entries"). -/
structure Entry where
  w0 : Word
  w1 : Word
  w2 : Word
  w3 : Word
deriving DecidableEq, Repr

/-- The reset value of a window, map or segment entry (R22, R99, R149). -/
def Entry.zero : Entry := ⟨0, 0, 0, 0⟩

/-- The settings entry's link reset value, packed by R174: 8 MHz, 16 us, 15 us, 100 us; 0, 0, FIXED; top 9, NESTED (R171). -/
def Entry.settingsReset : Entry := ⟨0x0A0F1001, 0, 9, 0⟩

/-! ## The slot cycle engine (01) -/

/-- The two address spaces of the slot bus. -/
inductive Space where
  | port | memory
deriving DecidableEq, Repr

/-- The two causes a cycle can fault for (R11, R14). -/
inductive Cause where
  | ready | check
deriving DecidableEq, Repr

/-- Who owns the slot bus (R56). -/
inductive BusOwner where
  | free | hostPath | dma (c : Chan) | master | refresh
deriving DecidableEq, Repr

inductive CycleKind where
  | byte | word | unit | refresh
deriving DecidableEq, Repr

inductive CyclePhase where
  | running | extended
deriving DecidableEq, Repr

/-- A channel's direction (R69). -/
inductive Direction where
  | toMemory | fromMemory | verify
deriving DecidableEq, Repr

/-- What a cycle does: a host-path access, a unit in the channel's direction, or a refresh (R2). -/
inductive CycleUse where
  | access (space : Space) (isRead : Bool)
  | transfer (d : Direction)
  | row
deriving DecidableEq, Repr

/-- The record of the cycle in progress (R2). `tc` is the terminal-count signal (R9), `drive` what the board drives on the
data lines (R3, R8), `discard` marks a unit cycle whose result PART RESET has thrown away (R96). -/
structure Cycle where
  kind    : CycleKind
  owner   : BusOwner
  use     : CycleUse
  addr    : Nat
  waits   : Nat
  sense   : Option Bool
  phase   : CyclePhase
  ready   : Bool
  check   : Bool
  tc      : Bool
  drive   : List Byte
  discard : Bool
deriving DecidableEq, Repr

/-- A ready timer that runs: the limit in force when it started, and the microseconds since (R11, R118). -/
structure ReadyTimer where
  limit   : Nat
  elapsed : Nat
deriving DecidableEq, Repr

/-- The card-check latch (R14). -/
structure CheckLatch where
  owner : BusOwner
  addr  : Option Nat
deriving DecidableEq, Repr

/-- The state of the slot reset line (R16). -/
inductive ResetLine where
  | asserted | settling | released
deriving DecidableEq, Repr

/-- A SLOT RESET in progress with its two times and the microseconds of the timer now running (R16, R18). -/
structure Pulse where
  durationMs : Nat
  settleMs   : Nat
  elapsed    : Nat
deriving DecidableEq, Repr

/-- The slot clock settings (R1). -/
inductive SlotClock where
  | mhz6 | mhz8 | mhz10
deriving DecidableEq, Repr

/-- An owed SLOT FAULT (R15): its cause, whether its owner is REFRESH (else NONE), its address if it has one. -/
structure SlotFault where
  cause     : Cause
  ofRefresh : Bool
  addr      : Option Nat
deriving DecidableEq, Repr

structure SlotEngine where
  cycle      : Option Cycle
  readyTimer : Option ReadyTimer
  lastAddr   : Option Nat
  latch      : CheckLatch
  line       : ResetLine
  held       : Bool
  pulse      : Option Pulse
  clock      : SlotClock
  slotFault  : Option SlotFault
deriving DecidableEq, Repr

/-- What one host-path tenure moves (R7, R29, R153): the window's parameters, where the tenure stands, and its faults.
`addr` is the address of the cycle in progress and `left` the bytes from it on; `moved` the bytes moved so far; `out` the
bytes still to write; `lastLen` and `lastFaulted` describe the last cycle the tenure completed. -/
structure Xfer where
  space       : Space
  isRead      : Bool
  words       : Bool
  waits       : Nat
  report      : Bool
  forStream   : Bool
  addr        : Nat
  left        : Nat
  moved       : List Byte
  out         : List Byte
  lastLen     : Nat
  lastFaulted : Bool
  firstFault  : Option Cause
  stopped     : Bool
  aborted     : Bool
deriving DecidableEq, Repr

/-! ## The request queue and sequencer (03) -/

/-- The status codes (R174). -/
inductive Status where
  | ok | clamped | busy | collision | noWindow | span | refusedByWindow | badEntry | badRequest
  | held | ready | check | short | badSegment | hostError | aborted | notInService | nothing
deriving DecidableEq, Repr

/-- Phases of the request in flight (R36). `taken` is the model's: taken by the sequencer, not yet executed (log entry 2). -/
inductive ReqPhase where
  | taken | waiting | active | ended
deriving DecidableEq, Repr

/-- What a drain waits for: bytes still to issue on each channel, entries still to issue from the master buffer (R130). -/
structure Waits where
  chans  : PerChan Nat
  master : Nat
deriving DecidableEq, Repr

/-- What an ACTIVE request that takes time waits for: a CHANNEL MASK for the channels it names, of which `left` are still to be
cleared once they have stopped (R78, R79), a FENCE for its drain (R52). -/
inductive Work where
  | nothing
  | maskSet (chans : PerChan Bool)
  | maskClear (chans left : PerChan Bool)
  | fence (covered : Nat) (waits : Waits)
deriving DecidableEq, Repr

/-- The outcome of a request (R36): status, count, 8 data bytes. -/
structure Answer where
  status : Status
  count  : Nat
  data   : List Byte
deriving DecidableEq, Repr

/-- The execution record (R36). `haltFault`: its first fault fell under a HALT policy (R45). -/
structure Exec where
  request   : Record
  phase     : ReqPhase
  answer    : Answer
  responds  : Bool
  haltFault : Bool
  work      : Work
deriving DecidableEq, Repr

inductive QueueState where
  | running | halted | faulted
deriving DecidableEq, Repr

/-- An entry of the list of control answers (R46). `kind` is the request's kind code; `behind` numbers the request in flight that an
abort's answer waited for, whose records are written ahead of it (R50, log entry 41). -/
structure Control where
  kind   : Byte
  tag    : Byte
  answer : Answer
  ready  : Bool
  behind : Option Nat
deriving DecidableEq, Repr

/-- Which record holds the sequencer's place in the return writer's order (R46, R165). -/
inductive Place where
  | empty | response | control
deriving DecidableEq, Repr

/-- The request queue and the sequencer. `tied`: the control answer in the place took it in the write to the request port that is still
being taken (R46, R160, log entry 49). Two more fields are the model's: `finished`, a stream that has just ended and retired with no
response, which a QUEUE ABORT of the same moment still finds (R48, log entry 40), and `number`, the requests retired since link reset,
which is the number of the request in flight (R50, log entry 41). -/
structure Queue where
  records   : List Record
  exec      : Option Exec
  state     : QueueState
  waitHalt  : Bool
  waitAbort : Bool
  controls  : List Control
  place     : Place
  finished  : Option Record
  number    : Nat
  tied      : Bool
deriving DecidableEq, Repr

/-! ## Bus arbiter and refresh generator (04) -/

structure Arbiter where
  owner        : BusOwner
  hostWaiting  : Bool
  dmaCount     : Nat
  hostTurn     : Bool
  masterChan   : Option Chan
  meter        : Nat
  longReported : Bool
  lastMaster   : Option Nat
deriving DecidableEq, Repr

structure Refresh where
  timer   : Nat
  owed    : Nat
  row     : BitVec 8
  episode : Bool
  late    : Bool
deriving DecidableEq, Repr

/-! ## DMA engine (05) -/

inductive ChanMode where
  | single | demand | block | master
deriving DecidableEq, Repr

/-- Where a STOPPING channel goes (R70). -/
inductive Dest where
  | idle | finished
deriving DecidableEq, Repr

/-- The states of a channel (R70); `finished` is DONE. -/
inductive ChanState where
  | idle | finished | waiting | ready | active | stalled | mastered | stopping (d : Dest)
deriving DecidableEq, Repr

/-- A next block (R69, R75). -/
structure Block where
  page  : BitVec 8
  addr  : BitVec 16
  count : BitVec 16
deriving DecidableEq, Repr

/-- A channel record (R69). Fault flags are numbered as R174 numbers them. `faultCauses` is the model's: the numbers of the requests
that caused the owed CHANNEL FAULT (R50, log entry 41). -/
structure Channel where
  mode        : ChanMode
  dir         : Direction
  decrement   : Bool
  autoReload  : Bool
  quiet       : Bool
  stopOnFault : Bool
  threshold   : Nat
  limit       : Nat
  page        : BitVec 8
  baseAddr    : BitVec 16
  baseCount   : BitVec 16
  curAddr     : BitVec 16
  curCount    : BitVec 16
  nextBlock   : Option Block
  mask        : Bool
  soft        : Bool
  blockRun    : Bool
  tcFlag      : Bool
  tcOwed      : Nat
  nextTaken   : Bool
  faults      : BitVec 6
  firstFault  : BitVec 24
  owedFaults  : BitVec 6
  owedAddr    : BitVec 24
  faultCauses : List Nat
  state       : ChanState
deriving DecidableEq, Repr

/-- The reset value of a channel record (R96). -/
def Channel.reset : Channel :=
  { mode := .single, dir := .toMemory, decrement := false, autoReload := false, quiet := false,
    stopOnFault := false, threshold := 8, limit := 16, page := 0, baseAddr := 0, baseCount := 0,
    curAddr := 0, curCount := 0, nextBlock := none, mask := true, soft := false, blockRun := false,
    tcFlag := false, tcOwed := 0, nextTaken := false, faults := 0, firstFault := 0,
    owedFaults := 0, owedAddr := 0, faultCauses := [], state := .idle }

structure Dma where
  chans : PerChan Channel
  order : List Chan
deriving DecidableEq, Repr

/-! ## Staging buffers and host mover (06) -/

/-- The open run of a TO MEMORY channel (R104). `bytes` stand in rising host order; the length is theirs. -/
structure Run where
  first     : Nat
  last      : Nat
  entry     : Nat
  hostFirst : Nat
  hostLast  : Nat
  bytes     : List Byte
  age       : Nat
deriving DecidableEq, Repr

/-- A prefetch read of a FROM MEMORY channel, in unit order (R104, R111): `data` is none while it is outstanding, and
afterwards the staged bytes not yet consumed, each with its legacy address. `beyond`: past the pass point (R111). -/
structure Chunk where
  id     : Nat
  addr   : Nat
  host   : Nat
  len    : Nat
  data   : Option (List Host.Cell)
  beyond : Bool
deriving DecidableEq, Repr

inductive CursorState where
  | reading | atEnd | waitingAhead
deriving DecidableEq, Repr

inductive Passed where
  | no | reload | next
deriving DecidableEq, Repr

/-- The prefetch cursor (R111). -/
structure Cursor where
  page   : BitVec 8
  addr   : BitVec 16
  count  : BitVec 16
  state  : CursorState
  passed : Passed
deriving DecidableEq, Repr

/-- One channel's staging buffer and the host mover's records for it (R104, R111). Decided runs stand in the order of host
writes. `readId` numbers the channel's next prefetch read. -/
structure Staging where
  opened : Option Run
  marks  : List Nat
  chunks : List Chunk
  cursor : Cursor
  readId : Nat
deriving DecidableEq, Repr

/-- Empty buffers and a cursor at rest (R110, R117). -/
def Staging.reset : Staging :=
  { opened := none, marks := [], chunks := [],
    cursor := { page := 0, addr := 0, count := 0, state := .atEnd, passed := .no }, readId := 0 }

/-- Whose host write a place in the order holds (R103). -/
inductive WriteSource where
  | run (c : Chan)
  | master (entries : Nat)
  | piece
  | record
  | msi
deriving DecidableEq, Repr

/-- Whose host read a place in the order holds (R103). -/
inductive ReadSource where
  | prefetch (c : Chan) (id : Nat)
  | fill
  | stream (id : Nat)
deriving DecidableEq, Repr

/-- One place in the order of host writes (R103). -/
inductive OrderItem where
  | write (src : WriteSource) (addr : Nat) (bytes : List Byte)
  | read (src : ReadSource)
deriving DecidableEq, Repr

/-! ## Master access port (07) -/

/-- An entry of the master write buffer (R119). -/
structure MasterEntry where
  addr    : Nat
  bytes   : List Byte
  entry   : Nat
  host    : Nat
  decided : Bool
deriving DecidableEq, Repr

structure ReadLine where
  addr  : Nat
  entry : Nat
  host  : Nat
  bytes : List Byte
deriving DecidableEq, Repr

structure Fill where
  addr    : Nat
  entry   : Nat
  host    : Nat
  ignored : Bool
deriving DecidableEq, Repr

/-- What a held cycle waits for: a write for room, a read for its fill; `toForm`: the read's own fill is still to be formed (R123). -/
inductive HeldKind where
  | write (bytes : List Byte)
  | read (len : Nat) (toForm : Bool)
deriving DecidableEq, Repr

/-- The cycle the port holds with the ready line (R119), with the lookup made when it was taken (R121). -/
structure Stretched where
  kind  : HeldKind
  addr  : Nat
  entry : Nat
  host  : Nat
  timer : ReadyTimer
deriving DecidableEq, Repr

/-- The owed MASTER FAULT: its causes and its one address (R126). `causes` is the model's: the numbers of the requests that caused the
record (R50, log entry 41). -/
structure MasterFault where
  ready     : Bool
  hostError : Bool
  long      : Bool
  addr      : Nat
  causes    : List Nat
deriving DecidableEq, Repr

/-- The master access port (R119). `answered` holds the bytes the port last drove for the card (log entry 5). -/
structure MasterPort where
  buffer    : List MasterEntry
  readLine  : Option ReadLine
  fill      : Option Fill
  stretched : Option Stretched
  owedFault : Option MasterFault
  drains    : List Nat
  answered  : Option (List Byte)
deriving DecidableEq, Repr

/-! ## Interrupt unit (08) -/

/-- A line record (R129); `level` is the trigger: LEVEL if set, EDGE if clear. -/
structure LineRec where
  level     : Bool
  mask      : Bool
  pending   : Bool
  inService : Bool
  overrun   : Bool
  drain     : PerChan Bool
  autoEnd   : Bool
deriving DecidableEq, Repr

/-- The reset value of a line record (R146). -/
def LineRec.reset : LineRec :=
  { level := false, mask := true, pending := false, inService := false, overrun := false,
    drain := PerChan.const false, autoEnd := false }

/-- The delivery in progress: the candidate, whether it is POSTING (else DRAINING), its waits (R130). `causes` is the model's: the
number of the request that made its line the candidate, if one did (R50, log entry 41). -/
structure Delivery where
  line    : Line
  posting : Bool
  waits   : Waits
  causes  : List Nat
deriving DecidableEq, Repr

/-- The line the LINE POLL in flight has selected, with its waits (R130). -/
structure PollSelection where
  line  : Line
  waits : Waits
deriving DecidableEq, Repr

structure Interrupts where
  lines       : PerLine LineRec
  delivery    : Option Delivery
  poll        : Option PollSelection
  pollWaiting : Bool
deriving DecidableEq, Repr

/-! ## Stream engine (09) -/

inductive WalkEnd where
  | total | atEnd | invalid | failed
deriving DecidableEq, Repr

/-- The host place of one stream byte (R152): its host address, segment, offset, whether it is its segment's last byte, and
which use of a segment it belongs to (R155). -/
structure Spot where
  host      : Nat
  seg       : Nat
  off       : Nat
  lastOfSeg : Bool
  use       : Nat
deriving DecidableEq, Repr

/-- A host read of a STREAM OUT: `pos` is its first byte's stream position; `data` is none while outstanding, and afterwards
the bytes not yet written to the port (R154). `off` is the offset of the first byte still held. -/
structure StreamChunk where
  id   : Nat
  pos  : Nat
  len  : Nat
  seg  : Nat
  off  : Nat
  data : Option (List Byte)
deriving DecidableEq, Repr

/-- The open piece of a STREAM IN (R155). -/
structure Piece where
  host  : Nat
  bytes : List Byte
  use   : Nat
deriving DecidableEq, Repr

/-- The stream record (R151). `seg`, `off`, `use` and `placed` are the placement cursor; `step` the places of the next IN
step's bytes. -/
structure StreamRec where
  isIn       : Bool
  port       : Nat
  wordWide   : Bool
  words      : Bool
  waits      : Nat
  report     : Bool
  total      : Nat
  seg        : Nat
  off        : Nat
  use        : Nat
  placed     : Nat
  walkEnd    : Option (WalkEnd × Nat)
  moved      : Nat
  chunks     : List StreamChunk
  step       : List Spot
  piece      : Option Piece
  firstFault : Option Cause
  lastSeg    : Nat
  used       : Nat
  endingNext : Option Nat
deriving DecidableEq, Repr

structure StreamEngine where
  active : Option StreamRec
  readId : Nat
deriving DecidableEq, Repr

/-! ## Link interface, intake and return writer (10) -/

structure ReturnWriter where
  ringSet : Bool
  base    : BitVec 64
  size    : Nat
  w       : BitVec 32
  c       : BitVec 32
  armed   : Bool
deriving DecidableEq, Repr

/-- The causes intake discards for (R161). -/
inductive DiscardCause where
  | full | malformed | unknown
deriving DecidableEq, Repr

structure Intake where
  fault    : Bool
  discards : Nat
  owed     : Option DiscardCause
deriving DecidableEq, Repr

/-! ## What stands outside the board -/

/-- The lines the cards drive. -/
structure Pins where
  dreq : PerChan Bool
  irq  : PerLine Bool
deriving DecidableEq, Repr

/-- The host's side of the link: the bytes the board has put in host memory (R103), the MSIs it has sent, and the PCIe
configuration's MSI enable (R162). -/
structure HostSide where
  mem        : List Host.Cell
  msis       : Nat
  msiEnabled : Bool
deriving DecidableEq, Repr

/-! ## The whole board -/

structure State where
  pending  : List Instr
  slot     : SlotEngine
  xfer     : Option Xfer
  windows  : Vector Entry 32
  queue    : Queue
  arb      : Arbiter
  refresh  : Refresh
  dma      : Dma
  map      : Vector Entry 32
  staging  : PerChan Staging
  order    : List OrderItem
  master   : MasterPort
  irq      : Interrupts
  segments : Vector Entry 64
  stream   : StreamEngine
  ret      : ReturnWriter
  intake   : Intake
  settings : Entry
  pins     : Pins
  host     : HostSide
deriving DecidableEq, Repr

/-- The board right after link reset ("Link reset values by block", 11), with an empty command queue, the cards' lines low
(log entry 4), nothing yet written to host memory (log entry 6) and MSI enabled (log entry 7). -/
def State.reset : State :=
  { pending := []
    slot :=
      { cycle := none, readyTimer := none, lastAddr := none, latch := ⟨.free, none⟩, line := .asserted,
        held := true, pulse := none, clock := .mhz8, slotFault := none }
    xfer := none
    windows := Vector.replicate 32 Entry.zero
    queue :=
      { records := [], exec := none, state := .running, waitHalt := false, waitAbort := false,
        controls := [], place := .empty, finished := none, number := 0, tied := false }
    arb :=
      { owner := .free, hostWaiting := false, dmaCount := 0, hostTurn := false, masterChan := none,
        meter := 0, longReported := false, lastMaster := none }
    refresh := { timer := 0, owed := 0, row := 0, episode := false, late := false }
    dma := { chans := PerChan.const Channel.reset, order := [.c0, .c1, .c2, .c3, .c5, .c6, .c7] }
    map := Vector.replicate 32 Entry.zero
    staging := PerChan.const Staging.reset
    order := []
    master :=
      { buffer := [], readLine := none, fill := none, stretched := none, owedFault := none,
        drains := [], answered := none }
    irq :=
      { lines := PerLine.const LineRec.reset, delivery := none, poll := none, pollWaiting := false }
    segments := Vector.replicate 64 Entry.zero
    stream := { active := none, readId := 0 }
    ret := { ringSet := false, base := 0, size := 64, w := 0, c := 0, armed := false }
    intake := { fault := false, discards := 0, owed := none }
    settings := Entry.settingsReset
    pins := { dreq := PerChan.const false, irq := PerLine.const false }
    host := { mem := [], msis := 0, msiEnabled := true } }

end Sys2Proof.Machine
end

