-- ==== Sys2Proof/Machine/Operands.lean ====
section
/-! DEFINITION. The operand forms of the manual: bit fields, channel and line numbers, request fields, table entry fields,
and the byte layouts of records (R174). -/

namespace Sys2Proof

/-! ## Channels -/

/-- Every channel, in the order that decides ties between channels (R82, R103, R165). -/
def Chan.all : List Chan := [.c0, .c1, .c2, .c3, .c5, .c6, .c7]

/-- A channel's number (R69). -/
def Chan.num : Chan → Nat
  | .c0 => 0 | .c1 => 1 | .c2 => 2 | .c3 => 3 | .c5 => 5 | .c6 => 6 | .c7 => 7

/-- The channel a number names; there is no channel 4 (R73). -/
def Chan.ofNum (n : Nat) : Option Chan := Chan.all.find? (fun c => c.num = n)

/-- Channels 5, 6 and 7 are word channels (R89). -/
def Chan.isWord : Chan → Bool
  | .c5 | .c6 | .c7 => true
  | .c0 | .c1 | .c2 | .c3 => false

/-- Bytes of one unit of the channel (R8). -/
def Chan.unit (c : Chan) : Nat := if c.isWord then 2 else 1

/-! ## Lines -/

/-- The priority ring (R134). -/
def Line.ring : List Line := [.l9, .l10, .l11, .l12, .l14, .l15, .l3, .l4, .l5, .l6, .l7]

/-- A line's number (R129). -/
def Line.num : Line → Nat
  | .l3 => 3 | .l4 => 4 | .l5 => 5 | .l6 => 6 | .l7 => 7 | .l9 => 9
  | .l10 => 10 | .l11 => 11 | .l12 => 12 | .l14 => 14 | .l15 => 15

/-- The line a number names; 2 names none (R140). -/
def Line.ofNum (n : Nat) : Option Line := Line.ring.find? (fun l => l.num = n)

/-- A line's place in the ring, from 0. -/
def Line.place (l : Line) : Nat := Line.ring.idxOf l

/-- The ring read from a top: rank 1 first (R134). -/
def ringFrom (top : Line) : List Line := Line.ring.drop top.place ++ Line.ring.take top.place

/-- A line's rank under a top, counted from 1 (R134). -/
def rank (top l : Line) : Nat := (ringFrom top).idxOf l + 1

/-- The line that follows in the ring (R143). -/
def Line.after (l : Line) : Line := ((ringFrom l).getD 1 .l9)

end Sys2Proof

namespace Sys2Proof.Machine

/-- Bits `lo` to `lo + len - 1` of a word, as a number. -/
def field (w : Word) (lo len : Nat) : Nat := w.toNat / 2 ^ lo % 2 ^ len

/-- Bit `n` of a word. -/
def bit (w : Word) (n : Nat) : Bool := w.getLsbD n

/-- A number as four bytes, least significant first (00 section 1.5). -/
def le32 (n : Nat) : List Byte := wordBytes (BitVec.ofNat 32 n)

/-- A number as two bytes, least significant first. -/
def le16 (n : Nat) : List Byte := [BitVec.ofNat 8 n, BitVec.ofNat 8 (n / 256)]

/-- Eight data bytes of 00h. -/
def zeros8 : List Byte := [0, 0, 0, 0, 0, 0, 0, 0]

/-- `bs` followed by 00h up to eight data bytes (R5, R174). -/
def pad8 (bs : List Byte) : List Byte := (bs ++ zeros8).take 8

/-- A truth value as bit `n` of a byte. -/
def flagBit (b : Bool) (n : Nat) : Nat := if b then 2 ^ n else 0

/-- The set of channels marked in bits `lo`..`lo+7` of a word, bit n standing for channel n (R174). -/
def chanMarks (w : Word) (lo : Nat) : PerChan Bool :=
  { c0 := bit w lo, c1 := bit w (lo + 1), c2 := bit w (lo + 2), c3 := bit w (lo + 3),
    c5 := bit w (lo + 5), c6 := bit w (lo + 6), c7 := bit w (lo + 7) }

/-- Channel marks name no channel 4 and nothing above 7 (R51, R73, R174). -/
def chanMarksGood (w : Word) : Bool := !bit w 4 && field w 8 24 = 0

/-- The line marked in bit n of a word. -/
def lineMarked (w : Word) (l : Line) : Bool := bit w l.num

/-- No mark stands at 0, 1, 2, 8, 13 or 16-31 (R141, R174). -/
def lineMarksGood (w : Word) : Bool :=
  !bit w 0 && !bit w 1 && !bit w 2 && !bit w 8 && !bit w 13 && field w 16 16 = 0

/-! ## Request records -/

/-- The respond flag (R174). -/
def respond (r : Record) : Bool := r.flags.getLsbD 0

/-- Kind-specific flag bit 1: pulse, master, set, clear TC flag, specific, all (R174). -/
def flag1 (r : Record) : Bool := r.flags.getLsbD 1

/-- Kind-specific flag bit 2: rotate (R174). -/
def flag2 (r : Record) : Bool := r.flags.getLsbD 2

/-- The width of a PORT or MEMORY request, if its operands pass R6. -/
def slotOperandsGood (space : Space) (r : Record) : Bool :=
  match space with
  | .port => (r.sub = 1 || r.sub = 2) && r.addr.toNat < 2 ^ 16
  | .memory => (1 ≤ r.sub.toNat && r.sub.toNat ≤ 4) && r.addr.toNat < 2 ^ 24

/-- The next block that CHANNEL PROGRAM and CHANNEL NEXT carry (R174). -/
def recordBlock (r : Record) : Block :=
  { page := BitVec.ofNat 8 (field r.value 16 8), addr := BitVec.ofNat 16 (field r.value 0 16),
    count := BitVec.ofNat 16 (field r.mask 0 16) }

/-- No bit above the page, address and count is set (R74, R75, R174). -/
def recordBlockGood (r : Record) : Bool := field r.value 24 8 = 0 && field r.mask 16 16 = 0

/-- The mode of a mode word (R174). -/
def modeOf (w : Word) : ChanMode :=
  match field w 0 2 with
  | 0 => .single | 1 => .demand | 2 => .block | _ => .master

/-- The direction of a mode word, if it is one (R74, R174). -/
def directionOf (w : Word) : Option Direction :=
  match field w 2 2 with
  | 0 => some .toMemory | 1 => some .fromMemory | 2 => some .verify | _ => none

/-- The burst threshold of a mode word, if its code is one (R74, R174). -/
def thresholdOf (w : Word) : Option Nat :=
  match field w 8 3 with
  | 0 => some 8 | 1 => some 16 | 2 => some 32 | 3 => some 64 | 4 => some 128 | _ => none

/-- The prefetch limit of a mode word, if it is a multiple of 16 from 16 to 256 (R74, R174). -/
def prefetchLimitOf (w : Word) : Option Nat :=
  let n := field w 16 9
  if n % 16 = 0 ∧ 16 ≤ n ∧ n ≤ 256 then some n else none

/-- The programmed fields of a CHANNEL PROGRAM, or none where a coded field holds no listed value (R74). -/
def modeWord (w : Word) : Option (Direction × Nat × Nat) :=
  match directionOf w, thresholdOf w, prefetchLimitOf w with
  | some d, some t, some l => some (d, t, l)
  | _, _, _ => none

/-! ## Table entries -/

/-- Replace word `n` of an entry. -/
def Entry.putWord (e : Entry) (n : Nat) (w : Word) : Entry :=
  match n with
  | 0 => { e with w0 := w } | 1 => { e with w1 := w } | 2 => { e with w2 := w } | _ => { e with w3 := w }

/-- Word `n` of an entry, and 0 past its end (R169). -/
def Entry.word (e : Entry) : Nat → Word
  | 0 => e.w0 | 1 => e.w1 | 2 => e.w2 | 3 => e.w3 | _ => 0

/-- The merge of R168: the value's bit where the mask holds 1, the old bit where it holds 0. -/
def mergeWord (old value mask : Word) : Word := (value &&& mask) ||| (old &&& ~~~mask)

/-- The entry with word `n` merged. -/
def Entry.merge (e : Entry) (n : Nat) (value mask : Word) : Entry :=
  e.putWord n (mergeWord (e.word n) value mask)

/-- Keep the bits of the fields, and set every other bit to 0 (R168). -/
def Entry.keep (e : Entry) (m0 m1 m2 m3 : Word) : Entry :=
  ⟨e.w0 &&& m0, e.w1 &&& m1, e.w2 &&& m2, e.w3 &&& m3⟩

/-- Bit 0 of word 0: valid, in windows, map entries and segments (R174). -/
def Entry.valid (e : Entry) : Bool := bit e.w0 0

/-! ### Windows (R21, R174) -/

def winMemory (e : Entry) : Bool := bit e.w0 1
def winSpace (e : Entry) : Space := if winMemory e then .memory else .port
def winAction (e : Entry) : Nat := field e.w0 2 2
def winWords (e : Entry) : Bool := bit e.w0 4
def winWaits (e : Entry) : Nat := field e.w0 5 3
def winReport (e : Entry) : Bool := bit e.w0 8
def winFill (e : Entry) : Byte := BitVec.ofNat 8 (field e.w0 16 8)
def winBase (e : Entry) : Nat := e.w1.toNat
def winLimit (e : Entry) : Nat := e.w2.toNat

/-- The bits of a window entry that hold fields (R174). -/
def winKeep (e : Entry) : Entry := e.keep 0x00FF01FF 0xFFFFFFFF 0xFFFFFFFF 0

/-- One above the highest address of a space (R6). -/
def spaceSize : Space → Nat
  | .port => 2 ^ 16
  | .memory => 2 ^ 24

/-- The checks on a window candidate (R23). -/
def winAccepted (e : Entry) : Bool :=
  !e.valid || (winAction e ≠ 3 && winBase e < spaceSize (winSpace e) &&
    winLimit e < spaceSize (winSpace e) && winBase e ≤ winLimit e)

/-! ### Memory map (R98, R174) -/

def mapAccess (e : Entry) : Nat := field e.w0 1 2
def mapF (e : Entry) : Nat := field e.w0 16 12
def mapN (e : Entry) : Nat := field e.w1 0 12 + 1
def mapG (e : Entry) : Nat := e.w2.toNat + field e.w3 0 20 * 2 ^ 32

/-- The bits of a map entry that hold fields (R174). -/
def mapKeep (e : Entry) : Entry := e.keep 0x0FFF0007 0x00000FFF 0xFFFFFFFF 0x000FFFFF

/-- The checks on a map candidate (R100). -/
def mapAccepted (e : Entry) : Bool :=
  !e.valid || (mapAccess e ≠ 3 && mapF e + mapN e ≤ 4096 && mapG e + mapN e ≤ 2 ^ 52)

/-- The entry contains a legacy address (R98). -/
def mapContains (e : Entry) (l : Nat) : Bool :=
  mapF e * Config.frameBytes ≤ l && l < (mapF e + mapN e) * Config.frameBytes

/-- The host address of a legacy address the entry contains (R98). -/
def mapHost (e : Entry) (l : Nat) : Nat := mapG e * Config.frameBytes + (l - mapF e * Config.frameBytes)

/-- The two kinds of access (R101). -/
inductive Need where
  | read | write
deriving DecidableEq, Repr

/-- The entry's access includes the one needed; codes 0 READ, 1 WRITE, 2 BOTH (R101, R174). -/
def mapAllows (e : Entry) : Need → Bool
  | .read => mapAccess e = 0 || mapAccess e = 2
  | .write => mapAccess e = 1 || mapAccess e = 2

/-! ### Segments (R148, R174) -/

def segNext (e : Entry) : Nat := field e.w0 8 8
def segLength (e : Entry) : Nat := field e.w0 16 16 + 1
def segHost (e : Entry) : Nat := e.w1.toNat + e.w2.toNat * 2 ^ 32

/-- The next field's END (R148). -/
def segEnd : Nat := 127

/-- The bits of a segment entry that hold fields (R174). -/
def segKeep (e : Entry) : Entry := e.keep 0xFFFFFF01 0xFFFFFFFF 0xFFFFFFFF 0

/-- The checks on a segment candidate (R149). -/
def segAccepted (e : Entry) : Bool :=
  !e.valid || ((segNext e < 64 || segNext e = segEnd) && segHost e + segLength e ≤ 2 ^ 64)

/-! ### Settings (R171, R174) -/

def setClockCode (e : Entry) : Nat := field e.w0 0 2
def setReadyLimit (e : Entry) : Nat := field e.w0 8 6
def setRefreshPeriod (e : Entry) : Nat := field e.w0 16 6
def setAgeCode (e : Entry) : Nat := field e.w0 24 8
def setTenureLimit (e : Entry) : Nat := field e.w1 0 8
def setMasterHold (e : Entry) : Nat := field e.w1 8 8
def setRotating (e : Entry) : Bool := bit e.w1 16
def setTopCode (e : Entry) : Nat := field e.w2 0 8
def setNestCode (e : Entry) : Nat := field e.w2 8 2

/-- The slot clock a code names (R174); code 3 is clamped to 10 MHz (R171). -/
def setClock (e : Entry) : SlotClock :=
  match setClockCode e with
  | 0 => .mhz6 | 1 => .mhz8 | _ => .mhz10

/-- The staging age limit in microseconds (R109, R174). -/
def setAgeLimit (e : Entry) : Nat := setAgeCode e * 10

/-- The number a priority top code is clamped to (R134, R171). -/
def clampTop (n : Nat) : Nat :=
  if n ≤ 2 then 3 else if n = 8 then 9 else if n = 13 then 14 else if 15 < n then 15 else n

/-- The priority top (R130, R134). -/
def setTop (e : Entry) : Line := (Line.ofNum (clampTop (setTopCode e))).getD .l9

/-- NESTED unless the code is OPEN (R134). -/
def setNested (e : Entry) : Bool := setNestCode e ≠ 1

/-- The settings entry packed from its fields (R174). -/
def packSettings (clock ready period age tenure hold : Nat) (rotating : Bool) (top nest : Nat) : Entry :=
  ⟨BitVec.ofNat 32 (clock + ready * 2 ^ 8 + period * 2 ^ 16 + age * 2 ^ 24),
   BitVec.ofNat 32 (tenure + hold * 2 ^ 8 + (if rotating then 2 ^ 16 else 0)),
   BitVec.ofNat 32 (top + nest * 2 ^ 8), 0⟩

/-- Every field of the candidate clamped to its range (R171); bits that hold no field become 0 (R168). -/
def clampSettings (e : Entry) : Entry :=
  packSettings
    (if setClockCode e = 3 then 2 else setClockCode e)
    (if setReadyLimit e < 2 then 2 else setReadyLimit e)
    (if 1 ≤ setRefreshPeriod e ∧ setRefreshPeriod e ≤ 4 then 5 else setRefreshPeriod e)
    (setAgeCode e) (setTenureLimit e) (setMasterHold e) (setRotating e)
    (clampTop (setTopCode e))
    (if 2 ≤ setNestCode e then 0 else setNestCode e)

/-- No field of the candidate is out of its range, so that the write answers OK (R171). -/
def settingsInRange (e : Entry) : Bool :=
  setClockCode e ≠ 3 && 2 ≤ setReadyLimit e &&
    !(1 ≤ setRefreshPeriod e && setRefreshPeriod e ≤ 4) &&
    clampTop (setTopCode e) = setTopCode e && setNestCode e < 2

/-- The settings entry with another priority top (R143). -/
def putTop (e : Entry) (l : Line) : Entry :=
  { e with w2 := mergeWord e.w2 (BitVec.ofNat 32 l.num) 0xFF }

end Sys2Proof.Machine
end

