-- ==== Sys2Proof/Machine/Flags.lean ====
section
/-! DEFINITION. The codes and flags the board shows: status codes, channel fault flags and states, the status word (R174). -/

namespace Sys2Proof.Machine

/-- Status codes (R174). -/
def Status.code : Status → Byte
  | .ok => 0x00 | .clamped => 0x01 | .busy => 0x02 | .collision => 0x03 | .noWindow => 0x04
  | .span => 0x05 | .refusedByWindow => 0x06 | .badEntry => 0x07 | .badRequest => 0x08 | .held => 0x09
  | .ready => 0x0A | .check => 0x0B | .short => 0x0C | .badSegment => 0x0D | .hostError => 0x0E
  | .aborted => 0x0F | .notInService => 0x10 | .nothing => 0x11

/-- The status a cycle fault gives a response (R30). -/
def Cause.status : Cause → Status
  | .ready => .ready
  | .check => .check

/-- The code of a cause in a SLOT FAULT and in a stream's data (R174). -/
def Cause.code : Cause → Byte
  | .ready => 1
  | .check => 2

/-- The causes of a channel fault (R94), numbered as R174 numbers their flags. -/
inductive ChanFault where
  | ready | check | miss | denied | hostError | starved
deriving DecidableEq, Repr

/-- The flag of a channel fault (R174). -/
def ChanFault.flag : ChanFault → BitVec 6
  | .ready => 0x01 | .check => 0x02 | .miss => 0x04 | .denied => 0x08 | .hostError => 0x10 | .starved => 0x20

/-- State codes of CHANNEL STATUS (R174). -/
def ChanState.code : ChanState → Nat
  | .idle => 0 | .finished => 1 | .waiting => 2 | .ready => 3 | .active => 4 | .stalled => 5
  | .mastered => 6 | .stopping _ => 7

/-- The destination-DONE bit of CHANNEL STATUS (R174). -/
def ChanState.toDone : ChanState → Bool
  | .stopping .finished => true
  | _ => false

/-- The kinds that always respond (R39). -/
def alwaysResponds : ReqKind → Bool
  | .portRead | .memoryRead | .tableRead | .channelStatus | .linePoll | .identify | .fence => true
  | _ => false

/-- Whether a request that ends with a status writes a RESPONSE record (R39). -/
def respondsWith (r : Record) (st : Status) : Bool :=
  !(st = .ok || st = .clamped) || alwaysResponds r.kind || respond r

/-- Queue state codes of the status word (R174). -/
def QueueState.code : QueueState → Nat
  | .running => 0 | .halted => 1 | .faulted => 2

/-- Codes of the intake discard causes (R174). -/
def DiscardCause.code : DiscardCause → Byte
  | .full => 1 | .malformed => 2 | .unknown => 3

/-- The queue room (R35). -/
def queueRoom (s : State) : Nat := Config.queueCapacity - s.queue.records.length

/-- The status word (R159, R174). -/
def statusWord (s : State) : Word :=
  BitVec.ofNat 32 (queueRoom s + s.queue.state.code * 2 ^ 8 + flagBit s.ret.ringSet 12 +
    flagBit s.slot.held 13 + flagBit s.intake.fault 14)

/-- The byte a read of the aperture returns at an offset: the status word at 800h-803h and 0 elsewhere (R159). -/
def apertureByte (s : State) (offset : BitVec 12) : Byte :=
  if offset.toNat / 4 = 0x200 then (wordBytes (statusWord s)).getD (offset.toNat % 4) 0 else 0

/-- The bytes a read of the aperture returns; the state is not changed (R159). -/
def apertureRead (s : State) (offset : BitVec 12) (len : Nat) : List Byte :=
  (List.range len).map (fun i => apertureByte s (offset + BitVec.ofNat 12 i))

/-- The activity LED is lit while the bus has an owner (R2, R57). -/
def ledLit (s : State) : Bool := s.arb.owner ≠ .free

/-- How long one slot clock lasts, in tenths of a nanosecond (R1). -/
def SlotClock.tenths : SlotClock → Nat
  | .mhz6 => 1667 | .mhz8 => 1250 | .mhz10 => 1000

/-- The slot clocks a cycle runs before any extension: its base length and its waits (R2). A word attempt that found no sense has
become a byte cycle (R4). -/
def Cycle.clocks (cyc : Cycle) : Nat :=
  (match cyc.kind with
   | .byte => 6
   | .word => 3
   | .unit => 6
   | .refresh => 4) + cyc.waits

/-- The terminal-count signal on the backplane (R9). -/
def tcSignal (s : State) : Bool :=
  match s.slot.cycle with
  | some cyc => cyc.tc
  | none => false

/-- The acknowledge line of a channel: asserted in its unit cycles (R8) and through its master tenure (R62). -/
def acknowledge (s : State) (c : Chan) : Bool :=
  (s.arb.owner = .master && s.arb.masterChan = some c) ||
    (match s.slot.cycle with
     | some cyc => cyc.kind = .unit && cyc.owner = .dma c
     | none => false)

end Sys2Proof.Machine
end

