-- ==== Sys2Proof/Machine/Memory.lean ====
section
/-! DEFINITION. The bytes the board has put in host memory (R103), in one canonical form: addresses strictly rising. An address
not listed is one the board has not written, so no entry equals what an unlisted address reads as (log entry 6). -/

namespace Sys2Proof.Machine

/-- The canonical form: addresses strictly rising. -/
def memWf : List Host.Cell → Bool
  | [] => true
  | [_] => true
  | a :: b :: rest => a.1 < b.1 && memWf (b :: rest)

/-- The byte the board has put at an address, if it has put one there. -/
def readByte : List Host.Cell → Nat → Option Byte
  | [], _ => none
  | (a, b) :: rest, n => if a = n then some b else readByte rest n

/-- Put one byte at an address. -/
def writeByte : List Host.Cell → Nat → Byte → List Host.Cell
  | [], n, v => [(n, v)]
  | (a, b) :: rest, n, v =>
    if n < a then (n, v) :: (a, b) :: rest
    else if n = a then (a, v) :: rest
    else (a, b) :: writeByte rest n v

/-- Put bytes at successive addresses. -/
def writeBytes : List Host.Cell → Nat → List Byte → List Host.Cell
  | m, _, [] => m
  | m, n, v :: vs => writeBytes (writeByte m n v) (n + 1) vs

end Sys2Proof.Machine
end

