-- ==== Sys2Proof/Machine/Ops.lean ====
section
/-! DEFINITION. Operations every block uses: reading and writing one channel, staging buffer or line record, the one order of
host writes (R103), what a drain waits for, and how the sequencer ends, retires and takes requests (R36 to R46). -/

namespace Sys2Proof.Machine

/-! ## One thing for every channel, for every line -/

def PerChan.ofFn {α : Type} (f : Chan → α) : PerChan α :=
  { c0 := f .c0, c1 := f .c1, c2 := f .c2, c3 := f .c3, c5 := f .c5, c6 := f .c6, c7 := f .c7 }

def PerLine.ofFn {α : Type} (f : Line → α) : PerLine α :=
  { l3 := f .l3, l4 := f .l4, l5 := f .l5, l6 := f .l6, l7 := f .l7, l9 := f .l9,
    l10 := f .l10, l11 := f .l11, l12 := f .l12, l14 := f .l14, l15 := f .l15 }

/-! ## One channel, one staging buffer, one line -/

def State.chan (s : State) (c : Chan) : Channel := s.dma.chans.get c
def State.putChan (s : State) (c : Chan) (ch : Channel) : State :=
  { s with dma := { s.dma with chans := s.dma.chans.put c ch } }

def State.stage (s : State) (c : Chan) : Staging := s.staging.get c
def State.putStage (s : State) (c : Chan) (st : Staging) : State :=
  { s with staging := s.staging.put c st }

def State.lineRec (s : State) (l : Line) : LineRec := s.irq.lines.get l
def State.putLine (s : State) (l : Line) (r : LineRec) : State :=
  { s with irq := { s.irq with lines := s.irq.lines.put l r } }

def State.putQueue (s : State) (q : Queue) : State := { s with queue := q }
def State.putSlot (s : State) (e : SlotEngine) : State := { s with slot := e }
def State.putArb (s : State) (a : Arbiter) : State := { s with arb := a }
def State.putMaster (s : State) (m : MasterPort) : State := { s with master := m }
def State.putIrq (s : State) (i : Interrupts) : State := { s with irq := i }
def State.putOrder (s : State) (o : List OrderItem) : State := { s with order := o }
def State.putActive (s : State) (r : Option StreamRec) : State :=
  { s with stream := { s.stream with active := r } }

/-! ## The order of host writes (R103) -/

def OrderItem.isRead : OrderItem → Bool
  | .read _ => true
  | .write _ _ _ => false

/-- A read at the head of the order has no decided write ahead of it, so it is sent and leaves the order (R103). -/
def sendReads (o : List OrderItem) : List OrderItem := o.dropWhile OrderItem.isRead

/-- A write takes its place at the tail when it is decided (R103). -/
def decideWrite (src : WriteSource) (addr : Nat) (bytes : List Byte) (s : State) : State :=
  s.putOrder (s.order ++ [.write src addr bytes])

/-- A read takes its place when it is formed; with nothing decided ahead of it, it is sent at once (R103). -/
def formRead (src : ReadSource) (s : State) : State :=
  s.putOrder (sendReads (s.order ++ [.read src]))

/-- The place is a staged run of the channel's. -/
def OrderItem.isRunOf (c : Chan) : OrderItem → Bool
  | .write (.run d) _ _ => d = c
  | .write (.master _) _ _ => false
  | .write .piece _ _ => false
  | .write .record _ _ => false
  | .write .msi _ _ => false
  | .read _ => false

/-- The runs of each channel in channel order, and then every other place; each channel's runs, and the others, keep their order
(R103). -/
def channelOrder (o : List OrderItem) : List OrderItem :=
  Chan.all.flatMap (fun c => o.filter (OrderItem.isRunOf c)) ++ o.filter (fun i => Chan.all.all (fun c => !i.isRunOf c))

/-- One event that decides writes in several blocks: they take their places channel by channel and then the master port's, behind
every place that stood before the event (R103). -/
def inChannelOrder (event : State → State) (s : State) : State :=
  let t := event s
  t.putOrder (t.order.take s.order.length ++ channelOrder (t.order.drop s.order.length))

/-- The read has been sent, so it can complete (R103). -/
def readSent (src : ReadSource) (s : State) : Bool := !s.order.contains (.read src)

/-! ## Waits of a drain -/

/-- Every wait is complete (R108, R127, R137). -/
def Waits.complete (w : Waits) : Bool := w.master = 0 && Chan.all.all (fun c => w.chans.get c = 0)

def Waits.zero : Waits := ⟨PerChan.const 0, 0⟩

/-- `k` bytes of the channel have been issued (R107, R108). -/
def Waits.tallyChan (w : Waits) (c : Chan) (k : Nat) : Waits :=
  { w with chans := w.chans.put c (w.chans.get c - k) }

/-- `k` entries have left the master buffer (R122, R127). -/
def Waits.tallyMaster (w : Waits) (k : Nat) : Waits := { w with master := w.master - k }

def tallyWork (f : Waits → Waits) : Work → Work
  | .fence n w => .fence n (f w)
  | .nothing => .nothing
  | .maskSet m => .maskSet m
  | .maskClear m left => .maskClear m left

/-- Everything that holds waits sees what has been issued: the candidate, the poll selection, the FENCE. -/
def tallyWaits (f : Waits → Waits) (s : State) : State :=
  { s with
    irq := { s.irq with
      delivery := s.irq.delivery.map (fun d => { d with waits := f d.waits })
      poll := s.irq.poll.map (fun p => { p with waits := f p.waits }) }
    queue := { s.queue with exec := s.queue.exec.map (fun e => { e with work := tallyWork f e.work }) } }

/-! ## The sequencer -/

/-- A fresh execution record for a record just taken (R36). -/
def Exec.take (r : Record) : Exec :=
  { request := r, phase := .taken, answer := ⟨.ok, 0, zeros8⟩, responds := false, haltFault := false,
    work := .nothing }

/-- In RUNNING with nothing in flight the head of the queue is taken (R37). -/
def takeHead (s : State) : State :=
  if s.queue.state = .running ∧ s.queue.exec = none then
    s.putQueue { s.queue with exec := s.queue.records.head?.map Exec.take }
  else s

/-- A response waits for the ring (R40). -/
def responseWaits (q : Queue) : Bool :=
  match q.exec with
  | some e => e.phase = .ended && e.responds
  | none => false

/-- The head of the list of control answers is ready (R46). -/
def controlWaits (q : Queue) : Bool :=
  match q.controls with
  | c :: _ => c.ready
  | [] => false

/-- The one that began to wait first holds the sequencer's place; of two in one event, the response (R46). An answer behind the head
has not begun to wait (log entry 52). -/
def claimPlace (q : Queue) : Queue :=
  match q.place with
  | .empty =>
    if responseWaits q then { q with place := .response }
    else if controlWaits q then { q with place := .control } else q
  | .response => q
  | .control => q

/-- What a record of a write to the request port leaves of the queue, with `more` of the write to come. Of an answer that took the place in
the write and a response that has begun to wait in it too, the response goes first (R46, R160). -/
def Queue.afterRecord (more : Bool) (old q : Queue) : Queue :=
  if q.place = .control && (old.tied || old.place ≠ .control) then
    if responseWaits q then { q with place := .response, tied := false } else { q with tied := more }
  else { q with tied := false }

/-- A record of a write to the request port, as part of the one event that the write is (R160). -/
def inWrite (more : Bool) (event : State → State) (s : State) : State :=
  let t := event s
  t.putQueue (Queue.afterRecord more s.queue t.queue)

/-- A control answer becomes ready (R46). -/
def Control.makeReady (c : Control) : Control := { c with ready := true }

/-- The request is a stream, which a QUEUE ABORT of the moment it ends still finds (R48). -/
def streamOf (r : Record) : Option Record := if r.kind = .streamIn || r.kind = .streamOut then some r else none

/-- The queue state a retirement leaves: an abort halts (R50), a HALT-policy fault enters FAULTED (R45), a halt halts (R43). -/
def stateAfterRetire (q : Queue) (haltFault : Bool) : QueueState :=
  if q.waitAbort then .halted else if haltFault then .faulted else if q.waitHalt then .halted else q.state

/-- The request in flight leaves the queue, waiting marks act, and the next head is taken (R35, R37, R40, R43, R45, R50). -/
def retire (s : State) : State :=
  match s.queue.exec with
  | none => s
  | some e =>
    takeHead
      ((s.putActive none).putQueue
        (claimPlace
          { s.queue with
            records := s.queue.records.tail
            exec := none
            state := stateAfterRetire s.queue e.haltFault
            waitHalt := false
            waitAbort := false
            controls := s.queue.controls.map Control.makeReady
            place := if s.queue.place = .response then .empty else s.queue.place
            finished := if e.responds then none else streamOf e.request
            number := s.queue.number + 1 }))

/-- The execution record at its outcome (R36, R39). -/
def Exec.finish (e : Exec) (st : Status) (count : Nat) (data : List Byte) (haltFault : Bool) : Exec :=
  { e with phase := .ended, answer := ⟨st, count, data⟩, responds := respondsWith e.request st,
           haltFault := haltFault, work := .nothing }

/-- The request in flight reaches ENDED; without a response it retires at once (R36, R39, R40). A QUEUE ABORT of the same moment
still names a stream that has retired so (R48, log entry 40). -/
def endWith (haltFault : Bool) (st : Status) (count : Nat) (data : List Byte) (s : State) : State :=
  match s.queue.exec with
  | none => s
  | some e =>
    let s' := s.putQueue (claimPlace { s.queue with exec := some (e.finish st count data haltFault) })
    if respondsWith e.request st then s' else retire s'

/-- The request in flight ends, its fault if any not under a HALT policy. -/
def endRequest (st : Status) (count : Nat) (data : List Byte) (s : State) : State := endWith false st count data s

/-- A refusal or a plain answer: count 0, data bytes 00h (R38, R39). -/
def answerPlain (st : Status) (s : State) : State := endRequest st 0 zeros8 s

/-- The phase of the request in flight. -/
def setPhase (p : ReqPhase) (s : State) : State :=
  s.putQueue { s.queue with exec := s.queue.exec.map (fun e => { e with phase := p }) }

/-- What the request in flight waits for. -/
def setWork (w : Work) (s : State) : State :=
  s.putQueue { s.queue with exec := s.queue.exec.map (fun e => { e with work := w }) }

/-- The work of the request in flight. -/
def workOf (s : State) : Work :=
  match s.queue.exec with
  | some e => e.work
  | none => .nothing

/-- The sequencer executes the record it has taken, if its row is the one asked for; any other state has no such event, and
nothing changes (log entry 2). -/
def whenTaken (row : Record → Bool) (body : Record → State → State) (s : State) : State :=
  match s.queue.exec with
  | some e => if e.phase = .taken && row e.request then body e.request (setPhase .active s) else s
  | none => s

/-- A record of one kind. -/
def ofKind (k : ReqKind) (r : Record) : Bool := r.kind = k

/-! ## The records a request causes (R50, log entry 41) -/

/-- The candidate is one that was not the candidate before. -/
def Delivery.blame (old : Option Delivery) (n : Nat) (d : Delivery) : Delivery :=
  if old.map Delivery.line = some d.line then d else { d with causes := d.causes ++ [n] }

/-- The owed CHANNEL FAULT has begun to be owed or has gained a flag. -/
def Channel.blame (old : Channel) (n : Nat) (ch : Channel) : Channel :=
  if ch.owedFaults = old.owedFaults then ch else { ch with faultCauses := ch.faultCauses ++ [n] }

/-- The owed MASTER FAULT has begun to be owed or has gained a cause. -/
def MasterFault.blame (old : Option MasterFault) (n : Nat) (f : MasterFault) : MasterFault :=
  if old = some f then f else { f with causes := f.causes ++ [n] }

/-- An event of the request in flight: each record that it makes owed or adds to, and the candidate that it selects, carries the
request's number. -/
def causing (event : State → State) (s : State) : State :=
  let t := event s
  let n := s.queue.number
  { t with
    dma := { t.dma with chans := PerChan.ofFn (fun c => Channel.blame (s.chan c) n (t.chan c)) }
    master := { t.master with owedFault := t.master.owedFault.map (MasterFault.blame s.master.owedFault n) }
    irq := { t.irq with delivery := t.irq.delivery.map (Delivery.blame s.irq.delivery n) } }

/-- The moment in which a stream retired unanswered is over (log entry 40). -/
def Queue.settled (q : Queue) : Queue := { q with finished := none }

/-- A control answer is put at the tail of the list (R46). -/
def pushControl (c : Control) (s : State) : State :=
  s.putQueue (claimPlace { s.queue with controls := s.queue.controls ++ [c] })

/-- The list of control answers has no room (R46). -/
def controlsFull (s : State) : Bool := Config.controlCapacity ≤ s.queue.controls.length

end Sys2Proof.Machine
end

