-- ==== Sys2Proof/Machine/HostMover.lean ====
section
/-! DEFINITION. The memory map and the host mover (06): lookup, the runs of card-to-memory bytes, flush demands, and the
prefetch cursor and its reads. -/

namespace Sys2Proof.Machine

/-! ## Lookup (R101) -/

inductive Lookup where
  | found (entry host : Nat)
  | denied
  | miss
deriving DecidableEq, Repr

/-- The lowest-numbered valid entry that contains the address decides (R101). -/
def lookupMap (m : Vector Entry 32) (l : Nat) (need : Need) : Lookup :=
  match m.toList.findIdx? (fun e => e.valid && mapContains e l) with
  | none => .miss
  | some i =>
    let e := m.toList.getD i Entry.zero
    if mapAllows e need then .found i (mapHost e l) else .denied

/-! ## Addresses and counts (R89, R90) -/

/-- The legacy address of a unit (R89). -/
def legacyAddr (c : Chan) (page : BitVec 8) (addr : BitVec 16) : Nat :=
  if c.isWord then (page.toNat - page.toNat % 2) * 65536 + 2 * addr.toNat
  else page.toNat * 65536 + addr.toNat

/-- The legacy address L of the channel's next unit (R89). -/
def unitAddr (c : Chan) (ch : Channel) : Nat := legacyAddr c ch.page ch.curAddr

/-- The address after `n` units (R90). -/
def stepAddr (decrement : Bool) (a : BitVec 16) (n : Nat) : BitVec 16 :=
  if decrement then a - BitVec.ofNat 16 n else a + BitVec.ofNat 16 n

/-! ## Staged counts (R104) -/

/-- Bytes of the channel's decided runs not yet issued (R104). -/
def decidedBytes (c : Chan) : List OrderItem → Nat
  | [] => 0
  | .write (.run c') _ bytes :: rest => (if c' = c then bytes.length else 0) + decidedBytes c rest
  | .write (.master _) _ _ :: rest => decidedBytes c rest
  | .write .piece _ _ :: rest => decidedBytes c rest
  | .write .record _ _ :: rest => decidedBytes c rest
  | .write .msi _ _ :: rest => decidedBytes c rest
  | .read _ :: rest => decidedBytes c rest

/-- Bytes of the open run. -/
def openBytes (st : Staging) : Nat :=
  match st.opened with
  | some r => r.bytes.length
  | none => 0

/-- Staged bytes of a prefetch read. -/
def Chunk.staged (k : Chunk) : Nat :=
  match k.data with
  | some bs => bs.length
  | none => 0

/-- Outstanding bytes of a prefetch read. -/
def Chunk.outstanding (k : Chunk) : Nat :=
  match k.data with
  | some _ => 0
  | none => k.len

/-- The channel's staged count (R104). -/
def stagedCount (c : Chan) (s : State) : Nat :=
  openBytes (s.stage c) + decidedBytes c s.order + ((s.stage c).chunks.map Chunk.staged).sum

/-- The channel's outstanding bytes (R111). -/
def outstandingCount (c : Chan) (s : State) : Nat := ((s.stage c).chunks.map Chunk.outstanding).sum

/-! ## Runs (R105, R106) -/

/-- The open run closes: its write is decided at the tail of the order (R106). -/
def closeRun (c : Chan) (s : State) : State :=
  match (s.stage c).opened with
  | none => s
  | some r => decideWrite (.run c) r.hostFirst r.bytes (s.putStage c { s.stage c with opened := none })

/-- Two host addresses lie in one host frame. -/
def sameFrame (a b : Nat) : Bool := a / Config.frameBytes = b / Config.frameBytes

/-- The unit of `n` bytes at `l`, found at entry `e` and host address `h`, follows the run (R105). -/
def follows (decrement : Bool) (r : Run) (n l e h : Nat) : Bool :=
  e = r.entry && sameFrame h r.hostFirst &&
    (if decrement then l + n = r.first && h + n = r.hostFirst
     else l = r.last + 1 && h = r.hostLast + 1)

/-- The unit joins the run on the side of its step (R105). -/
def joinRun (decrement : Bool) (r : Run) (bytes : List Byte) (l h : Nat) : Run :=
  if decrement then { r with first := l, hostFirst := h, bytes := bytes ++ r.bytes }
  else { r with last := l + bytes.length - 1, hostLast := h + bytes.length - 1, bytes := r.bytes ++ bytes }

/-- A run begun by a unit (R105). -/
def startRun (bytes : List Byte) (l e h : Nat) : Run :=
  { first := l, last := l + bytes.length - 1, entry := e, hostFirst := h,
    hostLast := h + bytes.length - 1, bytes := bytes, age := 0 }

/-- A unit has joined and the run has reached the end of its entry or of its host frame in the step direction, or its
burst threshold (R106). -/
def runEnds (decrement : Bool) (threshold : Nat) (en : Entry) (r : Run) : Bool :=
  threshold ≤ r.bytes.length ||
    (if decrement then r.first = mapF en * Config.frameBytes || r.hostFirst % Config.frameBytes = 0
     else r.last + 1 = (mapF en + mapN en) * Config.frameBytes || (r.hostLast + 1) % Config.frameBytes = 0)

/-- The unit's bytes are placed into a run at entry `e`, host address `h` (R105, R106). -/
def placeFound (c : Chan) (bytes : List Byte) (l e h : Nat) (s : State) : State :=
  let ch := s.chan c
  let fresh := fun s' : State => s'.putStage c { s'.stage c with opened := some (startRun bytes l e h) }
  match (s.stage c).opened with
  | none => fresh s
  | some r =>
    if follows ch.decrement r bytes.length l e h then
      let r' := joinRun ch.decrement r bytes l h
      let s' := s.putStage c { s.stage c with opened := some r' }
      if runEnds ch.decrement ch.threshold (s.map.toList.getD e Entry.zero) r' then closeRun c s' else s'
    else fresh (closeRun c s)

/-- A TO MEMORY unit's bytes are staged; on MISS or DENIED they are dropped and the fault is told (R105). -/
def placeUnit (c : Chan) (bytes : List Byte) (l : Nat) (s : State) : State × Option ChanFault :=
  match lookupMap s.map l .write with
  | .miss => (s, some .miss)
  | .denied => (s, some .denied)
  | .found e h => (placeFound c bytes l e h s, none)

/-! ## Flush demands (R108) -/

/-- The channel stages card-to-memory bytes (R104, R108). -/
def stagesToMemory (ch : Channel) : Bool := ch.dir = .toMemory && ch.mode ≠ .master

/-- The bytes a flush demand on the channel covers (R108). -/
def flushCover (c : Chan) (s : State) : Nat := if stagesToMemory (s.chan c) then stagedCount c s else 0

/-- A flush demand: the open run is closed, and the demand waits for every byte now staged (R108). -/
def flushDemand (c : Chan) (s : State) : State :=
  if stagesToMemory (s.chan c) then
    let n := stagedCount c s
    let s' := closeRun c s
    if n = 0 then s' else s'.putStage c { s'.stage c with marks := (s'.stage c).marks ++ [n] }
  else s

/-- The demands of a channel after `k` of its bytes were issued; a demand with nothing left is complete (R108). -/
def tallyMarks (k : Nat) (marks : List Nat) : List Nat := (marks.map (fun n => n - k)).filter (fun n => n ≠ 0)

/-! ## Prefetch (R111 to R117) -/

/-- The cursor set from the channel's record: READING, with nothing staged or outstanding (R111). -/
def startCursor (c : Chan) (s : State) : State :=
  let ch := s.chan c
  s.putStage c { s.stage c with
    chunks := []
    cursor := { page := ch.page, addr := ch.curAddr, count := ch.curCount, state := .reading, passed := .no } }

/-- Staged bytes discarded and outstanding reads forgotten, so that their completions do nothing (R114, R117). -/
def discardPrefetch (c : Chan) (s : State) : State :=
  s.putStage c { s.stage c with
    chunks := []
    cursor := { (s.stage c).cursor with passed := .no } }

/-- The cursor's terminal-count handling with passed none (R115): the next block, else the reloaded pass, else the end. -/
def cursorAtTerminal (ch : Channel) (cur : Cursor) : Cursor :=
  match ch.nextBlock with
  | some b => { page := b.page, addr := b.addr, count := b.count, state := .reading, passed := .next }
  | none =>
    if ch.autoReload then
      { cur with addr := ch.baseAddr, count := ch.baseCount, state := .reading, passed := .reload }
    else { cur with state := .atEnd }

/-- The cursor steps over a read of `units` units; past its terminal-count unit it is handled by R115. -/
def advanceCursor (ch : Channel) (cur : Cursor) (units : Nat) : Cursor :=
  let cur' := { cur with addr := stepAddr ch.decrement cur.addr units, count := cur.count - BitVec.ofNat 16 units }
  if units = cur.count.toNat + 1 then
    (if cur.passed = .no then cursorAtTerminal ch cur' else { cur' with state := .waitingAhead })
  else cur'

/-- The channel has performed its terminal-count unit (R115): bytes past the pass point now belong to its new pass. -/
def cursorSync (c : Chan) (s : State) : State :=
  let st := s.stage c
  if st.cursor.passed = .no then s
  else
    let cur := { st.cursor with passed := .no }
    s.putStage c { st with
      chunks := st.chunks.map (fun k => { k with beyond := false })
      cursor := if st.cursor.state = .waitingAhead then cursorAtTerminal (s.chan c) cur else cur }

/-- The cursor takes up a block that CHANNEL NEXT has brought (R116). -/
def cursorTakes (b : Block) : Cursor :=
  { page := b.page, addr := b.addr, count := b.count, state := .reading, passed := .next }

/-- CHANNEL NEXT on a FROM MEMORY channel's cursor (R116). -/
def cursorNext (c : Chan) (b : Block) (s : State) : State :=
  let st := s.stage c
  match st.cursor.passed with
  | .reload => s.putStage c { st with chunks := st.chunks.filter (fun k => !k.beyond), cursor := cursorTakes b }
  | .next => s
  | .no => if st.cursor.state = .atEnd then s.putStage c { st with cursor := cursorTakes b } else s

/-- The prefetcher forms reads only for an unmasked FROM MEMORY channel in these states (R111). -/
def prefetches (ch : Channel) : Bool :=
  ch.dir = .fromMemory && ch.mode ≠ .master &&
    (ch.state = .waiting || ch.state = .ready || ch.state = .active || ch.state = .stalled)

/-- Bytes from a unit at `l` to the end of its frame in the step direction (R112). -/
def toFrameEnd (c : Chan) (decrement : Bool) (l : Nat) : Nat :=
  if decrement then l % Config.frameBytes + c.unit else Config.frameBytes - l % Config.frameBytes

/-- Bytes from a unit at `l` to the end of the entry in the step direction (R112). -/
def toEntryEnd (c : Chan) (decrement : Bool) (en : Entry) (l : Nat) : Nat :=
  if decrement then l - mapF en * Config.frameBytes + c.unit
  else (mapF en + mapN en) * Config.frameBytes - l

/-- The length of the next prefetch read (R112). -/
def prefetchLength (c : Chan) (ch : Channel) (cur : Cursor) (m : Vector Entry 32) (found : Lookup) : Nat :=
  let l := legacyAddr c cur.page cur.addr
  let base := min (min ch.threshold ch.limit)
    (min (toFrameEnd c ch.decrement l) ((cur.count.toNat + 1) * c.unit))
  match found with
  | .found e _ => min base (toEntryEnd c ch.decrement (m.toList.getD e Entry.zero) l)
  | .denied => base
  | .miss => base

/-- Legacy addresses of `n` units from `l` in unit order, byte by byte (R104). -/
def unitAddrs (word decrement : Bool) : Nat → Nat → List Nat
  | 0, _ => []
  | n + 1, l =>
    if word then l :: (l + 1) :: unitAddrs word decrement n (if decrement then l - 2 else l + 2)
    else l :: unitAddrs word decrement n (if decrement then l - 1 else l + 1)

/-- Bytes that came lowest host address first, put in unit order (R113). -/
def toUnitOrder (word decrement : Bool) (bs : List Byte) : List Byte :=
  if decrement then
    (if word then (List.range (bs.length / 2)).flatMap (fun i =>
      [bs.getD (bs.length - 2 * (i + 1)) 0, bs.getD (bs.length - 2 * (i + 1) + 1) 0])
     else bs.reverse)
  else bs

/-- Staged bytes of a read that begins at `l`, in unit order with their legacy addresses (R104, R113). -/
def stagedBytes (c : Chan) (decrement : Bool) (l : Nat) (bs : List Byte) : List Host.Cell :=
  (unitAddrs c.isWord decrement (bs.length / c.unit) l).zip (toUnitOrder c.isWord decrement bs)

/-- The bytes of the next unit at `l` stand at the front of the buffer (R72). -/
def frontUnit (c : Chan) (l : Nat) (st : Staging) : Option (List Byte) :=
  match st.chunks with
  | k :: _ =>
    match k.data with
    | some ((a, x) :: (b, y) :: _) =>
      if c.isWord then (if a = l && b = l + 1 then some [x, y] else none)
      else if a = l then some [x] else none
    | some [(a, x)] => if !c.isWord && a = l then some [x] else none
    | some [] => none
    | none => none
  | [] => none

/-- A unit's bytes are consumed; a read with nothing left leaves the list (R113). -/
def consumeUnit (c : Chan) (s : State) : State :=
  let st := s.stage c
  match st.chunks with
  | k :: rest =>
    match k.data with
    | some bs =>
      let bs' := bs.drop c.unit
      s.putStage c { st with chunks := if bs'.isEmpty then rest else { k with data := some bs' } :: rest }
    | none => s
  | [] => s

/-- Staging can serve the channel's next unit (R72). -/
def canServe (c : Chan) (s : State) : Bool :=
  let ch := s.chan c
  if ch.mode = .master then true
  else
    match ch.dir with
    | .toMemory => stagedCount c s + c.unit ≤ Config.stagingBytes
    | .fromMemory => (frontUnit c (unitAddr c ch) (s.stage c)).isSome
    | .verify => true

end Sys2Proof.Machine
end

