-- ==== Sys2Proof/Machine/Channels.lean ====
section
/-! DEFINITION. The DMA engine's channel records (05): requests, readiness, faults, masking, stopping, terminal count. -/

namespace Sys2Proof.Machine

/-! ## Requests and readiness (R71, R72) -/

/-- The channel's request is active (R71, R87): its line while the slot reset line is not ASSERTED, its soft request, or a
BLOCK channel's block run. -/
def requestActive (c : Chan) (s : State) : Bool :=
  let ch := s.chan c
  (s.pins.dreq.get c && s.slot.line ≠ .asserted) ||
    (ch.mode ≠ .master && ch.soft) || (ch.mode = .block && ch.blockRun)

/-- A legacy address as the 24 bits a channel record keeps (R69). -/
def addr24 (n : Nat) : BitVec 24 := BitVec.ofNat 24 n

/-- A channel fault is recorded: sticky flag, first address, owed flags and address (R94). -/
def Channel.withFault (ch : Channel) (f : ChanFault) (a : Nat) : Channel :=
  { ch with
    faults := ch.faults ||| f.flag
    firstFault := if ch.firstFault = 0 ∧ ch.faults = 0 then addr24 a else ch.firstFault
    owedFaults := ch.owedFaults ||| f.flag
    owedAddr := if ch.owedFaults = 0 then addr24 a else ch.owedAddr }

/-- A channel fault that does not stop the channel (R94). -/
def recordFault (f : ChanFault) (a : Nat) (c : Chan) (s : State) : State :=
  s.putChan c ((s.chan c).withFault f a)

/-- The states in which an unmasked channel that does not own the bus is placed (R71). -/
def ChanState.placeable : ChanState → Bool
  | .waiting | .ready | .stalled => true
  | .idle | .finished | .active | .mastered | .stopping _ => false

/-- Where R71 puts the channel. -/
def placedState (c : Chan) (s : State) : ChanState :=
  if requestActive c s then (if canServe c s then .ready else .stalled) else .waiting

/-- An unmasked channel that does not own the bus is placed (R71). A FROM MEMORY channel that goes STALLED sets STARVED,
unless a discard stalls it (R72): `starves` is false then. -/
def placeChan (starves : Bool) (c : Chan) (s : State) : State :=
  let ch := s.chan c
  if ch.state.placeable then
    let st := placedState c s
    let s' := s.putChan c { ch with state := st }
    if starves && st = .stalled && ch.state ≠ .stalled && ch.dir = .fromMemory then
      recordFault .starved (unitAddr c ch) c s'
    else s'
  else s

/-! ## Unmasking (R78) -/

/-- The counts a DONE channel loads when its mask is cleared (R78). -/
def Channel.loadCounts (ch : Channel) : Channel :=
  match ch.nextBlock with
  | some b => { ch with page := b.page, baseAddr := b.addr, baseCount := b.count, curAddr := b.addr,
                        curCount := b.count, nextBlock := none }
  | none => { ch with curAddr := ch.baseAddr, curCount := ch.baseCount }

/-- The mask of an IDLE channel, or of a DONE one whose counts were loaded, is cleared (R78, R111). -/
def unmask (c : Chan) (ch : Channel) (s : State) : State :=
  let s' := s.putChan c { ch with mask := false, state := .waiting }
  placeChan true c (if ch.dir = .fromMemory then startCursor c s' else s')

/-- CHANNEL MASK clear on one channel, by its state (R78). A fault that the placing records is the request's doing (R50). -/
def clearMask (c : Chan) (s : State) : State :=
  let ch := s.chan c
  match ch.state with
  | .idle => causing (unmask c ch) s
  | .finished => causing (unmask c ch.loadCounts) s
  | .waiting | .ready | .active | .stalled | .mastered | .stopping _ => s

/-! ## CHANNEL MASK in flight (R79) -/

/-- A channel is IDLE or DONE. -/
def ChanState.atRest : ChanState → Bool
  | .idle | .finished => true
  | .waiting | .ready | .active | .stalled | .mastered | .stopping _ => false

/-- A CHANNEL MASK in flight ends when every channel it names is IDLE or DONE, for a set, or is unmasked, for a clear. A channel that is
masked again meanwhile keeps a clear in flight (R79, log entry 13). -/
def maskCheck (s : State) : State :=
  match workOf s with
  | .maskSet m =>
    if Chan.all.all (fun c => !m.get c || (s.chan c).state.atRest) then answerPlain .ok s else s
  | .maskClear m _ => if Chan.all.all (fun c => !m.get c || !(s.chan c).mask) then answerPlain .ok s else s
  | .nothing => s
  | .fence _ _ => s

/-- A clear that waited for the channel's stopping acts now, once (R78, R79). -/
def waitingClear (c : Chan) (s : State) : State :=
  match workOf s with
  | .maskClear m left =>
    if left.get c then clearMask c (setWork (.maskClear m (left.put c false)) s) else s
  | .nothing => s
  | .maskSet _ => s
  | .fence _ _ => s

/-! ## Stopping (R77) -/

/-- A STOPPING channel still has its unit, its master tenure or its flush to finish (R77, R96). -/
def stillStopping (c : Chan) (s : State) : Bool :=
  s.arb.owner = .dma c || s.arb.masterChan = some c ||
    (stagesToMemory (s.chan c) && stagedCount c s ≠ 0)

/-- A STOPPING channel with nothing left to finish enters its destination (R77, R78, R79). -/
def endStopping (c : Chan) (s : State) : State :=
  match (s.chan c).state with
  | .stopping d =>
    if stillStopping c s then s
    else
      let st := match d with
        | .idle => ChanState.idle
        | .finished => ChanState.finished
      maskCheck (waitingClear c (s.putChan c { s.chan c with state := st }))
  | .idle | .finished | .waiting | .ready | .active | .stalled | .mastered => s

/-- A channel that does not own the bus enters STOPPING: TO MEMORY bytes are flushed, FROM MEMORY bytes discarded (R77). -/
def enterStopping (c : Chan) (d : Dest) (s : State) : State :=
  let s' := s.putChan c { s.chan c with mask := true, state := .stopping d }
  let ch := s.chan c
  let s'' :=
    if ch.mode = .master then s'
    else
      match ch.dir with
      | .toMemory => flushDemand c s'
      | .fromMemory => discardPrefetch c s'
      | .verify => s'
  endStopping c s''

/-- The fields every masking clears (R76, R95, R97). -/
def Channel.masked (ch : Channel) : Channel := { ch with mask := true, soft := false, blockRun := false }

/-- The mask is set on one channel, by its state (R76). A channel that owns the bus finishes its unit or its tenure. -/
def maskChan (c : Chan) (s : State) : State :=
  let ch := s.chan c
  match ch.state with
  | .idle | .finished | .stopping _ => s
  | .waiting | .ready | .stalled => enterStopping c .idle (s.putChan c ch.masked)
  | .active | .mastered => s.putChan c { ch.masked with state := .stopping .idle }

/-- Stop-on-fault masks the channel when a unit fault is recorded (R95). -/
def stopOnFault (c : Chan) (s : State) : State := if (s.chan c).stopOnFault then maskChan c s else s

/-- A unit fault: recorded, then stop-on-fault (R94, R95). -/
def unitFault (f : ChanFault) (a : Nat) (c : Chan) (s : State) : State := stopOnFault c (recordFault f a c s)

/-! ## Terminal count (R91) -/

/-- The fields every terminal count touches, whatever follows it (R91, R93). -/
def Channel.countTc (ch : Channel) (taken : Bool) : Channel :=
  { ch with
    tcFlag := true, soft := false, blockRun := false
    tcOwed := if ch.quiet then ch.tcOwed else min 255 (ch.tcOwed + 1)
    nextTaken := if ch.quiet then ch.nextTaken else ch.nextTaken || taken }

/-- Next block, else auto-reload, else stop with destination DONE (R91). -/
def Channel.atTerminal (ch : Channel) : Channel :=
  match ch.nextBlock with
  | some b =>
    Channel.countTc { ch with page := b.page, baseAddr := b.addr, baseCount := b.count, curAddr := b.addr,
                              curCount := b.count, nextBlock := none } true
  | none =>
    if ch.autoReload then Channel.countTc { ch with curAddr := ch.baseAddr, curCount := ch.baseCount } false
    else Channel.countTc { ch with mask := true, state := .stopping .finished } false

/-- The handling of the terminal-count unit, after its step (R91, R115). A mask already taken leaves the channel STOPPING with
destination IDLE when the handling has loaded the counts (R92). -/
def terminalCount (c : Chan) (s : State) : State :=
  let s' := s.putChan c (s.chan c).atTerminal
  match (s.chan c).dir with
  | .toMemory => flushDemand c s'
  | .fromMemory => cursorSync c s'
  | .verify => s'

/-- The step of every unit (R90). -/
def Channel.step (ch : Channel) : Channel :=
  { ch with curAddr := stepAddr ch.decrement ch.curAddr 1, curCount := ch.curCount - 1 }

/-! ## Priority order (R82) -/

/-- The order after a tenure of `c` under ROTATING: the channel after `c` in the ring heads it (R82). -/
def rotateAfter (c : Chan) : List Chan :=
  Chan.all.drop (Chan.all.idxOf c + 1) ++ Chan.all.take (Chan.all.idxOf c + 1)

/-- The end of a tenure of `c`, for whatever reason, rotates the order under ROTATING (R82). -/
def rotateOrder (c : Chan) (s : State) : State :=
  if setRotating s.settings then { s with dma := { s.dma with order := rotateAfter c } } else s

/-- Do something for every channel, in channel order. -/
def forChans (f : Chan → State → State) (s : State) : State :=
  f .c7 (f .c6 (f .c5 (f .c3 (f .c2 (f .c1 (f .c0 s))))))

end Sys2Proof.Machine
end

