-- ==== Sys2Proof/Machine/MasterPort.lean ====
section
/-! DEFINITION. The master access port (07): the write buffer and its draining, the read line and its fill, MASTER FAULT. -/

namespace Sys2Proof.Machine

/-- The causes of a MASTER FAULT (R126). -/
inductive MasterCause where
  | ready | hostError | long
deriving DecidableEq, Repr

/-- A cause becomes owed: a new record with its address, or added to the one already owed (R126). -/
def addCause (k : MasterCause) (a : Nat) : Option MasterFault → MasterFault
  | none =>
    { ready := k = .ready, hostError := k = .hostError, long := k = .long, addr := a, causes := [] }
  | some f =>
    { f with ready := f.ready || k = .ready, hostError := f.hostError || k = .hostError,
             long := f.long || k = .long }

/-- A MASTER FAULT becomes owed or gains a cause (R126). -/
def masterFault (k : MasterCause) (a : Nat) (s : State) : State :=
  s.putMaster { s.master with owedFault := some (addCause k a s.master.owedFault) }

/-! ## The write buffer (R119 to R122) -/

/-- The entries that follow one another from the one whose last byte is at `last`, host `hostLast` (R122). -/
def followers (entry : Nat) : Nat → Nat → List MasterEntry → List MasterEntry
  | _, _, [] => []
  | last, hostLast, e :: es =>
    if e.addr = last + 1 && e.entry = entry && e.host = hostLast + 1 && sameFrame e.host hostLast then
      e :: followers entry (e.addr + e.bytes.length - 1) (e.host + e.bytes.length - 1) es
    else []

/-- The entries the next write takes: the oldest undecided one and those that follow it (R122). -/
def nextGroup : List MasterEntry → List MasterEntry
  | [] => []
  | e :: es => e :: followers e.entry (e.addr + e.bytes.length - 1) (e.host + e.bytes.length - 1) es

def MasterEntry.decide (e : MasterEntry) : MasterEntry := { e with decided := true }

/-- The entries of the buffer not yet decided; decided ones stand ahead of them. -/
def undecided (b : List MasterEntry) : List MasterEntry := b.dropWhile MasterEntry.decided

/-- One host write is decided from the oldest undecided entries (R122). -/
def decideGroup (s : State) : State :=
  match nextGroup (undecided s.master.buffer) with
  | [] => s
  | e :: es =>
    let n := (e :: es).length
    let d := s.master.buffer.takeWhile MasterEntry.decided
    let u := undecided s.master.buffer
    decideWrite (.master n) e.host ((e :: es).flatMap MasterEntry.bytes)
      (s.putMaster { s.master with buffer := d ++ (u.take n).map MasterEntry.decide ++ u.drop n })

/-- `n` host writes at most are decided, in buffer order. -/
def decideGroups : Nat → State → State
  | 0, s => s
  | n + 1, s => decideGroups n (decideGroup s)

/-- Every entry not yet decided is decided at once, as many writes as the grouping gives (R123, R127). -/
def decideAll (s : State) : State := decideGroups s.master.buffer.length s

/-- No host write of the port is decided and not yet issued (R122). -/
def portIdle (s : State) : Bool := s.master.buffer.all (fun e => !e.decided)

/-- Whenever an undecided entry waits and no write of the port does, one host write is decided (R122). -/
def masterDecide (s : State) : State := if portIdle s then decideGroup s else s

/-- The aligned 32-byte line an address lies in (R123). -/
def lineBase (l : Nat) : Nat := l / Config.lineBytes * Config.lineBytes

/-- A read line with bytes replaced from an offset on (R120). -/
def patchLine (old : List Byte) : Nat → List Byte → List Byte
  | _, [] => old
  | off, b :: bs => patchLine (old.set off b) (off + 1) bs

/-- A write is posted: a new entry at the tail; the read line follows it, and a fill of its line is marked to be ignored (R120). -/
def postWrite (addr : Nat) (bytes : List Byte) (entry host : Nat) (s : State) : State :=
  masterDecide
    (s.putMaster { s.master with
      buffer := s.master.buffer ++
        [{ addr := addr, bytes := bytes, entry := entry, host := host, decided := false }]
      readLine := s.master.readLine.map (fun rl =>
        if lineBase addr = rl.addr then { rl with bytes := patchLine rl.bytes (addr - rl.addr) bytes } else rl)
      fill := s.master.fill.map (fun f => if lineBase addr = f.addr then { f with ignored := true } else f) })

/-- An entry has left a full buffer: the held write is posted and the ready line released (R121). -/
def postHeld (s : State) : State :=
  match s.master.stretched with
  | some x =>
    match x.kind with
    | .write bytes =>
      if s.master.buffer.length < Config.masterEntries then
        postWrite x.addr bytes x.entry x.host (s.putMaster { s.master with stretched := none })
      else s
    | .read _ _ => s
  | none => s

/-- A drain mark covers every entry now in the buffer; those not yet decided are decided at once (R127). -/
def drainMark (s : State) : State :=
  if s.master.buffer.isEmpty then s
  else
    let s' := decideAll s
    s'.putMaster { s'.master with drains := s'.master.drains ++ [s'.master.buffer.length] }

/-- Bytes of the entries in the buffer (R52, R127). -/
def bufferBytes (s : State) : Nat := (s.master.buffer.map (fun e => e.bytes.length)).sum

/-! ## The read line (R123 to R125) -/

/-- The line becomes invalid and an outstanding fill is marked to be ignored (R125). -/
def invalidateLine (s : State) : State :=
  s.putMaster { s.master with
    readLine := none
    fill := s.master.fill.map (fun f => { f with ignored := true }) }

/-- The bytes of a read within a valid line (R123). -/
def lineHit (addr len : Nat) (s : State) : Option (List Byte) :=
  match s.master.readLine with
  | some rl =>
    if rl.addr ≤ addr && addr + len ≤ rl.addr + Config.lineBytes then
      some ((rl.bytes.drop (addr - rl.addr)).take len)
    else none
  | none => none

/-- A fill of the read's line is formed, behind every write decided before it; the line becomes invalid (R123). `ignored`: whether it is to
be ignored from the start (log entry 21). -/
def formFill (addr entry host : Nat) (ignored : Bool) (s : State) : State :=
  formRead .fill
    (s.putMaster { s.master with
      readLine := none
      fill := some { addr := lineBase addr, entry := entry, host := host - (addr - lineBase addr), ignored := ignored } })

/-- The held cycle is answered and the ready line released. -/
def releaseCycle (answer : Option (List Byte)) (s : State) : State :=
  s.putMaster { s.master with stretched := none, answered := answer }

/-- FFh in every byte of a read (R123, R124). -/
def allOnes (len : Nat) : List Byte := List.replicate len 0xFF

/-- The held cycle ends as at the ready limit: a write is lost, a read is given FFh, MASTER FAULT READY (R121, R124, R128). -/
def expireHeld (s : State) : State :=
  match s.master.stretched with
  | none => s
  | some x =>
    masterFault .ready x.addr
      (match x.kind with
       | .write _ => s.putMaster { s.master with stretched := none }
       | .read len _ => releaseCycle (some (allOnes len)) s)

end Sys2Proof.Machine
end

