-- ==== Sys2Proof/Machine/Arbiter.lean ====
section
/-! DEFINITION. The bus arbiter (04): grants, the beginning of each tenure, and the ends of DMA and master tenures. -/

namespace Sys2Proof.Machine

/-! ## The slot clock (R1) -/

/-- A slot clock change is applied while the bus has no owner (R1). -/
def applyClock (s : State) : State :=
  if s.arb.owner = .free then s.putSlot { s.slot with clock := setClock s.settings } else s

/-! ## The first cycle of each tenure -/

/-- The next step of a transfer is a word attempt (R4). -/
def wordAttempt (x : Xfer) : Bool := x.words && x.addr % 2 = 0 && 2 ≤ x.left

/-- The cycle a transfer runs next (R2, R3, R4, R7). -/
def Xfer.cycle (x : Xfer) : Cycle :=
  { kind := if wordAttempt x then .word else .byte, owner := .hostPath, use := .access x.space x.isRead,
    addr := x.addr, waits := x.waits, sense := none, phase := .running, ready := false, check := false,
    tc := false, drive := if x.isRead then [] else x.out.take (if wordAttempt x then 2 else 1),
    discard := false }

/-- The unit cycle of a channel (R8, R9). -/
def unitCycle (c : Chan) (s : State) : Cycle :=
  let ch := s.chan c
  let l := unitAddr c ch
  { kind := .unit, owner := .dma c, use := .transfer ch.dir, addr := l, waits := 0, sense := none,
    phase := .running, ready := false, check := false, tc := ch.curCount = 0,
    drive := if ch.dir = .fromMemory then (frontUnit c l (s.stage c)).getD [] else [],
    discard := false }

/-- A refresh cycle (R10). -/
def refreshCycle (s : State) : Cycle :=
  { kind := .refresh, owner := .refresh, use := .row, addr := s.refresh.row.toNat, waits := 0,
    sense := none, phase := .running, ready := false, check := false, tc := false, drive := [],
    discard := false }

/-- The slot cycle engine begins a cycle. -/
def beginCycle (cyc : Cycle) (s : State) : State :=
  s.putSlot { s.slot with cycle := some cyc, readyTimer := none }

/-! ## Grants (R57) -/

/-- A grant to the refresh generator (R66). -/
def grantRefresh (s : State) : State :=
  beginCycle (refreshCycle s) (s.putArb { s.arb with owner := .refresh })

/-- A grant to the host path: waiting, host turn and the DMA tenure count are cleared (R59), and a WAITING request starts (R36). -/
def grantHost (s : State) : State :=
  match s.xfer with
  | none => s
  | some x =>
    beginCycle x.cycle
      ((setPhase .active s).putArb
        { s.arb with owner := .hostPath, hostWaiting := false, hostTurn := false, dmaCount := 0 })

/-- The READY channel highest in the priority order (R82). -/
def readyChan (s : State) : Option Chan := s.dma.order.find? (fun c => (s.chan c).state = .ready)

/-- A grant hands the bus to a master card (R62, R125). -/
def grantMaster (c : Chan) (s : State) : State :=
  invalidateLine
    ((s.putChan c { s.chan c with state := .mastered }).putArb
      { s.arb with owner := .master, masterChan := some c, meter := 0, longReported := false, lastMaster := none })

/-- A grant to a channel that performs units (R83); a BLOCK channel's block run is set (R86). -/
def grantUnits (c : Chan) (s : State) : State :=
  let ch := s.chan c
  let s' := s.putChan c { ch with state := .active, blockRun := ch.blockRun || ch.mode = .block }
  beginCycle (unitCycle c s') (s'.putArb { s'.arb with owner := .dma c })

/-- A grant to the DMA engine and its choice of channel, in one event (R57, R82). -/
def grantDma (c : Chan) (s : State) : State :=
  if (s.chan c).mode = .master then grantMaster c s else grantUnits c s

/-- The arbiter grants a free bus: refresh, the host path under host turn, the DMA engine, the host path (R57). -/
def grant (s : State) : State :=
  if 0 < s.refresh.owed then grantRefresh s
  else if s.arb.hostTurn && s.arb.hostWaiting then grantHost s
  else
    match readyChan s with
    | some c => grantDma c s
    | none => if s.arb.hostWaiting then grantHost s else s

/-- With the bus free, a waiting clock change is applied, and unless the slot reset line is ASSERTED the arbiter grants (R57, R58). -/
def kickBus (s : State) : State :=
  if s.arb.owner = .free then
    let s' := applyClock s
    if s'.slot.line = .asserted then s' else grant s'
  else s

/-! ## Asking and withdrawing (R59, R61) -/

def BusOwner.isDma : BusOwner → Bool
  | .dma _ => true
  | .free | .hostPath | .master | .refresh => false

/-- The DMA tenure count has reached a limit other than 0 (R60, R61). -/
def limitReached (s : State) : Bool :=
  setTenureLimit s.settings ≠ 0 && setTenureLimit s.settings ≤ s.arb.dmaCount

/-- The host path begins to wait, with host turn by R61, and is granted at once if it may be (R57, R59). -/
def askBus (x : Xfer) (s : State) : State :=
  kickBus
    ({ s with xfer := some x }.putArb
      { s.arb with hostWaiting := true
                   hostTurn := s.arb.hostTurn || (!s.arb.owner.isDma && limitReached s) })

/-- The host path stops asking without a grant (R59). -/
def withdrawHost (s : State) : State :=
  if s.arb.hostWaiting then
    { s with xfer := none }.putArb { s.arb with hostWaiting := false, hostTurn := false }
  else s

/-! ## Ends of tenures -/

/-- The third condition of R60: the host path waits and the DMA tenure count has reached the limit. -/
def limitHolds (s : State) : Bool := s.arb.hostWaiting && limitReached s

/-- A DMA tenure ends at a unit boundary: where the third condition of R60 holds, host turn is set, whatever ends it (R61). -/
def turnAtBoundary (s : State) : State := s.putArb { s.arb with hostTurn := s.arb.hostTurn || limitHolds s }

/-- The bus has no owner and no cycle; no grant is made yet. -/
def freeBus (s : State) : State :=
  (s.putArb { s.arb with owner := .free }).putSlot
    { s.slot with cycle := none, readyTimer := none, lastAddr := none }

/-- A DMA tenure of `c` ends at a unit boundary (R60, R83): host turn by R61, the order rotates (R82), a masked channel stops, any
other is placed by R71. -/
def endDmaTenure (c : Chan) (s : State) : State :=
  let s' := rotateOrder c (freeBus (turnAtBoundary s))
  match (s'.chan c).state with
  | .stopping d => enterStopping c d s'
  | .active => placeChan true c (s'.putChan c { s'.chan c with state := .waiting })
  | .idle | .finished | .waiting | .ready | .stalled | .mastered => s'

/-- The master tenure of `c` ends with the fall of its request (R62, R82, R87, R128). -/
def endMasterTenure (c : Chan) (s : State) : State :=
  let s1 := expireHeld s
  let s2 := rotateOrder c
    (freeBus (s1.putArb { s1.arb with masterChan := none, meter := 0 }))
  match (s2.chan c).state with
  | .stopping _ => endStopping c s2
  | .mastered => placeChan true c (s2.putChan c { s2.chan c with state := .waiting })
  | .idle | .finished | .waiting | .ready | .active | .stalled => s2

end Sys2Proof.Machine
end

