-- ==== Sys2Proof/Machine/Streams.lean ====
section
/-! DEFINITION. The stream engine (09): the placement cursor, host reads of a STREAM OUT, pieces of a STREAM IN, port steps and
endings. -/

namespace Sys2Proof.Machine

/-! ## Walking the chain (R152) -/

def State.segment (s : State) (n : Nat) : Entry := s.segments.toList.getD n Entry.zero

/-- At the end of a segment the cursor follows its next field (R152). -/
def followNext (s : State) (r : StreamRec) : StreamRec :=
  let n := segNext (s.segment r.seg)
  if n = segEnd then { r with walkEnd := some (.atEnd, r.placed), endingNext := some segEnd }
  else if (s.segment n).valid then { r with seg := n, off := 0, use := r.use + 1 }
  else { r with walkEnd := some (.invalid, r.placed), endingNext := some n }

/-- The cursor needs another byte: at its segment's end it follows the next field first (R152). -/
def reachByte (s : State) (r : StreamRec) : StreamRec :=
  if r.walkEnd = none && r.off = segLength (s.segment r.seg) then followNext s r else r

/-- The cursor places `n` bytes of its segment; at the total the walk ends TOTAL (R152). -/
def advancePlaced (r : StreamRec) (n : Nat) : StreamRec :=
  { r with
    off := r.off + n
    placed := r.placed + n
    walkEnd := if r.placed + n = r.total then some (.total, r.total) else r.walkEnd }

/-- One byte of a STREAM IN is given its place, unless the walk has ended (R152, R153). -/
def placeByte (s : State) (r0 : StreamRec) : StreamRec :=
  let r := reachByte s r0
  if r.walkEnd = none then
    let e := s.segment r.seg
    let spot : Spot :=
      { host := segHost e + r.off, seg := r.seg, off := r.off, lastOfSeg := r.off + 1 = segLength e, use := r.use }
    { advancePlaced r 1 with step := r.step ++ [spot] }
  else r

/-- The next IN step's bytes are given their places (R152, R153). -/
def prepareStep (s : State) (r : StreamRec) : StreamRec :=
  if r.isIn && r.step.isEmpty then
    let r1 := placeByte s r
    if r.wordWide && !r1.step.isEmpty then placeByte s r1 else r1
  else r

/-! ## The stream buffer (R151, R153 to R155) -/

/-- Bytes of decided pieces not yet issued, whichever stream decided them (R151). -/
def pieceBytes : List OrderItem → Nat
  | [] => 0
  | .write .piece _ bytes :: rest => bytes.length + pieceBytes rest
  | .write (.run _) _ _ :: rest => pieceBytes rest
  | .write (.master _) _ _ :: rest => pieceBytes rest
  | .write .record _ _ :: rest => pieceBytes rest
  | .write .msi _ _ :: rest => pieceBytes rest
  | .read _ :: rest => pieceBytes rest

/-- Bytes of a stream read held or outstanding. -/
def StreamChunk.size (k : StreamChunk) : Nat :=
  match k.data with
  | some bs => bs.length
  | none => k.len

/-- Bytes the stream's own record keeps in the buffer. -/
def heldBytes (r : StreamRec) : Nat :=
  (r.chunks.map StreamChunk.size).sum +
    (match r.piece with
     | some p => p.bytes.length
     | none => 0)

/-- The room of the stream buffer (R151, R153, R154). -/
def streamRoom (r : StreamRec) (s : State) : Nat := Config.streamBytes - (heldBytes r + pieceBytes s.order)

/-- The open piece is closed and decided (R155). -/
def closePiece (s : State) : State :=
  match s.stream.active with
  | some r =>
    match r.piece with
    | some p => decideWrite .piece p.host p.bytes (s.putActive (some { r with piece := none }))
    | none => s
  | none => s

/-- The byte joins the open piece (R155). -/
def joinsPiece (p : Piece) (sp : Spot) : Bool :=
  sp.host = p.host + p.bytes.length && sp.use = p.use && sameFrame sp.host p.host

/-- A byte begins a new open piece. -/
def startPiece (sp : Spot) (b : Byte) (s : State) : State :=
  match s.stream.active with
  | some r => s.putActive (some { r with piece := some { host := sp.host, bytes := [b], use := sp.use } })
  | none => s

/-- One byte of a STREAM IN enters the buffer at its place (R155). -/
def enterByte (sp : Spot) (b : Byte) (s : State) : State :=
  match s.stream.active with
  | some r =>
    match r.piece with
    | some p =>
      if joinsPiece p sp then
        let p' : Piece := { p with bytes := p.bytes ++ [b] }
        let s' := s.putActive (some { r with piece := some p' })
        if p'.bytes.length = Config.streamPiece || sp.lastOfSeg || (sp.host + 1) % Config.frameBytes = 0 then closePiece s'
        else s'
      else startPiece sp b (closePiece s)
    | none => startPiece sp b s
  | none => s

/-- The bytes of a step enter the buffer in stream order (R153, R155). -/
def enterBytes : List Spot → List Byte → State → State
  | sp :: sps, b :: bs, s => enterBytes sps bs (enterByte sp b s)
  | [], _, s => s
  | _ :: _, [], s => s

/-- The bytes at the front of the buffer that have arrived, in stream order (R154). -/
def arrived : List StreamChunk → List Byte
  | [] => []
  | k :: ks =>
    match k.data with
    | some bs => bs ++ arrived ks
    | none => []

/-- `n` bytes written to the port leave the buffer; the last segment and bytes used follow them (R153, R156). -/
def leaveBytes : Nat → List StreamChunk → Nat → Nat → List StreamChunk × Nat × Nat
  | 0, ks, seg, used => (ks, seg, used)
  | _ + 1, [], seg, used => ([], seg, used)
  | n + 1, k :: ks, seg, used =>
    match k.data with
    | some (_ :: bs) =>
      leaveBytes n (if bs.isEmpty then ks else { k with data := some bs, off := k.off + 1, pos := k.pos + 1 } :: ks)
        k.seg (k.off + 1)
    | some [] => (k :: ks, seg, used)
    | none => (k :: ks, seg, used)

/-! ## Endings (R156) -/

/-- The data bytes of a stream's response: last segment, ending next, first fault, bytes used (R156, R174). -/
def streamData (lastSeg : Nat) (endingNext : Nat) (fault : Option Cause) (used : Nat) : List Byte :=
  [BitVec.ofNat 8 lastSeg, BitVec.ofNat 8 endingNext,
   (match fault with
    | some f => f.code
    | none => 0), 0] ++ le32 used

/-- The ending next of a response (R156). -/
def endingNextOf (st : Status) (r : StreamRec) : Nat :=
  if st = .short || st = .badSegment then r.endingNext.getD 0xFF else 0xFF

/-- The stream reaches ENDED: its piece is decided, what it read ahead is discarded, and its outcome stands (R155 to R158). -/
def endStream (st : Status) (haltFault : Bool) (s : State) : State :=
  match s.stream.active with
  | none => s
  | some r =>
    let s1 := closePiece (withdrawHost s)
    let s2 := s1.putActive (s1.stream.active.map (fun r' => { r' with chunks := [], step := [] }))
    endWith haltFault st r.moved (streamData r.lastSeg (endingNextOf st r) r.firstFault r.used) s2

/-- The status a walk end gives (R156). -/
def walkStatus (k : WalkEnd) (fault : Option Cause) : Status :=
  match k with
  | .total =>
    (match fault with
     | some f => f.status
     | none => .ok)
  | .atEnd => .short
  | .invalid => .badSegment
  | .failed => .hostError

/-- The stream in flight has not ended and no step of it owns the bus. -/
def streamAtRest (s : State) : Bool :=
  s.arb.owner ≠ .hostPath &&
    (match s.queue.exec with
     | some e => e.phase = .waiting || e.phase = .active
     | none => false)

/-- A stream whose walk end stands at the bytes moved, with no step under way, ends (R156). -/
def endIfWalked (s : State) : State :=
  match s.stream.active with
  | some r =>
    match r.walkEnd with
    | some (k, pos) =>
      if pos = r.moved && streamAtRest s then endStream (walkStatus k r.firstFault) false s else s
    | none => s
  | none => s

/-! ## Host reads of a STREAM OUT (R154) -/

/-- The length of the next read (R154). -/
def streamReadLength (s : State) (r : StreamRec) : Nat :=
  let e := s.segment r.seg
  let h := segHost e + r.off
  min (min Config.streamPiece (segLength e - r.off))
    (min (Config.frameBytes - h % Config.frameBytes) (r.total - r.placed))

/-- The next read is formed when the room is at least its length (R154). -/
def formStreamRead (s : State) : State :=
  match s.stream.active with
  | some r =>
    let n := streamReadLength s r
    if !r.isIn && r.walkEnd.isNone && n ≠ 0 && n ≤ streamRoom r s then
      let k : StreamChunk := { id := s.stream.readId, pos := r.placed, len := n, seg := r.seg, off := r.off, data := none }
      let r' := reachByte s (advancePlaced { r with chunks := r.chunks ++ [k] } n)
      formRead (.stream s.stream.readId)
        { s with stream := { active := some r', readId := s.stream.readId + 1 } }
    else s
  | none => s

/-- A read's bytes enter the buffer at their places (R154). -/
def deliverStream (id : Nat) (bs : List Byte) (ks : List StreamChunk) : List StreamChunk :=
  ks.map (fun k => if k.id = id && k.data.isNone then { k with data := some bs } else k)

/-- A failed read sets the walk end at its first byte, unless it lies earlier; it and what was read beyond it are dropped (R154). -/
def failStream (pos : Nat) (r : StreamRec) : StreamRec :=
  let earlier := match r.walkEnd with
    | some (_, p) => decide (p < pos)
    | none => false
  if earlier then r
  else { r with walkEnd := some (.failed, pos), endingNext := none, chunks := r.chunks.filter (fun k => k.pos < pos) }

/-! ## Port steps (R153) -/

/-- Bytes of the next OUT step, if it can be made (R153). -/
def outStep (r : StreamRec) : Option (List Byte) :=
  let lastByte := match r.walkEnd with
    | some (_, pos) => decide (pos = r.moved + 1)
    | none => false
  let n := if r.wordWide && !lastByte then 2 else 1
  let a := arrived r.chunks
  if n ≤ a.length then some (a.take n) else none

/-- The bytes the next step moves, if it can be made: how many, and for OUT which (R153). -/
def stepBytes (r : StreamRec) (s : State) : Option (Nat × List Byte) :=
  if r.isIn then
    (if !r.step.isEmpty && r.step.length ≤ streamRoom r s then some (r.step.length, []) else none)
  else (outStep r).map (fun bs => (bs.length, bs))

/-- The host-path transfer of a step (R153). -/
def stepXfer (r : StreamRec) (n : Nat) (out : List Byte) : Xfer :=
  { space := .port, isRead := r.isIn, words := r.words, waits := r.waits, report := r.report, forStream := true,
    addr := r.port, left := n, moved := [], out := out, lastLen := 0, lastFaulted := false,
    firstFault := none, stopped := false, aborted := false }

/-- What a step's end does to the stream record: moved, buffer, last segment (R153, R156, R157). -/
def countStep (r : StreamRec) (m : Nat) (fault : Option Cause) : StreamRec :=
  let r1 := { r with moved := r.moved + m, firstFault := r.firstFault <|> fault }
  if r.isIn then
    match (r.step.take m).getLast? with
    | some sp => { r1 with step := [], lastSeg := sp.seg, used := sp.off + 1 }
    | none => { r1 with step := [] }
  else
    let (ks, seg, used) := leaveBytes m r.chunks r.lastSeg r.used
    { r1 with chunks := ks, lastSeg := seg, used := used }

/-- A step's tenure has ended (R153, R156 to R158): its bytes count, and the stream goes on, or ends. -/
def endStep (x : Xfer) (s : State) : State :=
  match s.stream.active with
  | none => s
  | some r =>
    let s1 := s.putActive (some (countStep r x.moved.length x.firstFault))
    let s2 := if r.isIn then enterBytes r.step x.moved s1 else s1
    if x.aborted then endStream .aborted false s2
    else if x.stopped then
      endStream ((r.firstFault <|> x.firstFault).elim .ok Cause.status) true s2
    else
      endIfWalked (s2.putActive (s2.stream.active.map (prepareStep s2)))

end Sys2Proof.Machine
end

