-- ==== Sys2Proof/Machine/HostPath.lean ====
section
/-! DEFINITION. The host path (01, 02): window lookup, the cycles of a transfer, their faults, and the end of a host-path tenure. -/

namespace Sys2Proof.Machine

/-! ## Window lookup (R25, R26, R27) -/

/-- The entry is valid, of the space, and contains the first byte (R25). -/
def winContains (space : Space) (first : Nat) (e : Entry) : Bool :=
  e.valid && winSpace e = space && winBase e ≤ first && first ≤ winLimit e

/-- The deciding entry of a request, or the refusal it meets: NO WINDOW, then SPAN (R25, R26). -/
def decideWindow (ws : Vector Entry 32) (space : Space) (first width : Nat) : Except Status Entry :=
  match ws.toList.find? (winContains space first) with
  | none => .error .noWindow
  | some e => if winLimit e < first + width - 1 then .error .span else .ok e

/-- Window action codes (R174). -/
def actionForward : Nat := 0
def actionFill : Nat := 1
def actionRefuse : Nat := 2

/-! ## Cycles of a transfer (R7, R11, R31, R32) -/

/-- Bytes a host-path cycle moves: two for a word cycle with sense, else one (R2, R4). -/
def Cycle.size (cyc : Cycle) : Nat := if cyc.kind = .word then 2 else 1

/-- The word-sense result is recorded; without sense the attempt becomes a byte cycle (R4). -/
def Cycle.sensed (cyc : Cycle) (sense : Bool) : Cycle :=
  if cyc.kind = .word && cyc.sense.isNone then
    { cyc with sense := some sense, kind := if sense then .word else .byte
               drive := if sense then cyc.drive else cyc.drive.take 1 }
  else cyc

/-- The bytes on the data lines, the low half first (R4, R8). R3 names no half for the one byte of a byte cycle at an odd address: the
operand of the cycle's end carries it in its low half, at an odd address too (log entry 37). -/
def busBytes (d : BusWord) : List Byte := [d.extractLsb' 0 8, d.extractLsb' 8 8]

/-- A fault is taken against a transfer's cycle: the first gives the status, and under HALT stops the rest (R30, R31, R32). -/
def Xfer.fault (x : Xfer) (k : Cause) : Xfer :=
  { x with firstFault := x.firstFault <|> some k, stopped := x.stopped || !x.report }

/-- A cycle that moved `n` bytes has ended and counts: a faulted one under REPORT as FFh (R7, R32). The byte of a byte cycle is the
first of `bytes`, at an odd address too (log entry 37). -/
def Xfer.count (x : Xfer) (n : Nat) (bytes : List Byte) (faulted : Bool) : Xfer :=
  { x with
    addr := x.addr + n, left := x.left - n
    moved := x.moved ++ (if faulted then allOnes n else bytes.take n)
    out := x.out.drop n, lastLen := n, lastFaulted := faulted }

/-- The transfer after the end of its cycle; a faulted cycle under HALT does not count (R31). -/
def Xfer.endCycle (x : Xfer) (cyc : Cycle) (bytes : List Byte) : Xfer :=
  let faulted := cyc.ready || cyc.check
  if faulted && !x.report then x
  else x.count cyc.size bytes faulted

/-- No further cycle of the transfer runs (R7, R31, R48). An abort ends a step of two byte cycles after the one in progress (log entry
51). -/
def Xfer.over (x : Xfer) : Bool := x.left = 0 || x.stopped || x.aborted

/-- The outcome of a PORT or MEMORY request (R33). -/
def finishSlotRequest (x : Xfer) (s : State) : State :=
  match x.firstFault with
  | none => endRequest .ok x.moved.length (if x.isRead then pad8 x.moved else zeros8) s
  | some k => endWith (!x.report) k.status x.moved.length (if x.isRead then pad8 x.moved else zeros8) s

/-- The host-path tenure ends: the request or the step takes its end, and the arbiter grants (R29, R57, R59). -/
def endHostTenure (x : Xfer) (s : State) : State :=
  let s1 := { freeBus s with xfer := none }
  kickBus (if x.forStream then endStep x s1 else finishSlotRequest x s1)

/-- After a cycle the tenure goes on with the next step or ends (R7). -/
def continueHost (x : Xfer) (s : State) : State :=
  if x.over then endHostTenure x s
  else beginCycle x.cycle { s with xfer := some x }

/-- The host-path cycle in progress ends with these bytes read (R7, R31, R32). -/
def endHostCycle (cyc : Cycle) (bytes : List Byte) (s : State) : State :=
  match s.xfer with
  | none => s
  | some x =>
    continueHost (x.endCycle cyc bytes) (s.putSlot { s.slot with lastAddr := some cyc.addr })

/-- A check between two cycles is charged to the last one completed: its bytes leave the count under HALT, and are FFh under
REPORT; a cycle already faulted is not changed (R30, R31, R32). -/
def Xfer.checkLast (x : Xfer) : Xfer :=
  if x.lastFaulted then x
  else
    let y := { x.fault .check with lastFaulted := true }
    if x.report then { y with moved := x.moved.take (x.moved.length - x.lastLen) ++ allOnes x.lastLen }
    else { y with moved := x.moved.take (x.moved.length - x.lastLen) }

end Sys2Proof.Machine
end

