-- ==== Sys2Proof/Machine/Lines.lean ====
section
/-! DEFINITION. The interrupt unit (08): eligibility, drains, the candidate and the poll selection. -/

namespace Sys2Proof.Machine

/-! ## Eligibility (R134, R135) -/

/-- The priority top now in force (R130). -/
def top (s : State) : Line := setTop s.settings

/-- In NESTED mode, a line in service with a priority equal to or higher than `l` holds it back (R135). -/
def heldBack (s : State) (l : Line) : Bool :=
  setNested s.settings &&
    Line.ring.any (fun m => (s.lineRec m).inService && rank (top s) m ≤ rank (top s) l)

/-- The line is eligible (R135). -/
def eligible (s : State) (l : Line) : Bool :=
  let r := s.lineRec l
  !r.mask && r.pending && !r.inService && !heldBack s l

/-- The eligible line of highest priority (R136, R144). -/
def bestEligible (s : State) : Option Line := (ringFrom (top s)).find? (eligible s)

/-- The line in service of highest priority (R142). -/
def bestInService (s : State) : Option Line :=
  (ringFrom (top s)).find? (fun l => (s.lineRec l).inService)

/-! ## The drain of a drain set (R127, R136) -/

/-- A channel of the set is in MASTER mode when the drain is made (R127, R136). -/
def drainsMaster (d : PerChan Bool) (s : State) : Bool :=
  Chan.all.any (fun c => d.get c && (s.chan c).mode = .master)

/-- The bytes the drain's flush demands cover on each channel of the set (R136). -/
def drainCover (d : PerChan Bool) (s : State) : PerChan Nat :=
  PerChan.ofFn (fun c => if d.get c then flushCover c s else 0)

/-- The waits the drain makes (R130, R136). -/
def drainWaits (d : PerChan Bool) (withMaster : Bool) (s : State) : Waits :=
  { chans := drainCover d s, master := if withMaster then s.master.buffer.length else 0 }

/-- The drain is made: flush demands channel by channel, then the master buffer's mark (R103, R127, R136). -/
def makeDrain (d : PerChan Bool) (withMaster : Bool) (s : State) : State :=
  let s' := forChans (fun c x => if d.get c then flushDemand c x else x) s
  if withMaster then drainMark s' else s'

/-! ## Selection, drop, post (R136 to R139, R144, R145) -/

/-- A candidate that has stopped being eligible is dropped; its drain stays in force (R139). -/
def dropDelivery (s : State) : State :=
  match s.irq.delivery with
  | some d => if eligible s d.line then s else s.putIrq { s.irq with delivery := none }
  | none => s

/-- A LINE POLL makes its selection: the highest eligible line and its drain, or NONE (R144). -/
def pollSelect (s : State) : State :=
  match bestEligible s with
  | none => answerPlain .nothing s
  | some l =>
    let d := (s.lineRec l).drain
    let m := drainsMaster d s
    let w := drainWaits d m s
    let s' := makeDrain d m s
    s'.putIrq { s'.irq with poll := some { line := l, waits := w } }

/-- A waiting poll selects once the delivery is over (R144); a poll whose line has stopped being eligible selects again (R145). -/
def repoll (s : State) : State :=
  match s.irq.poll with
  | some p =>
    if eligible s p.line then s else pollSelect (s.putIrq { s.irq with poll := none })
  | none =>
    if s.irq.pollWaiting && s.irq.delivery.isNone then
      pollSelect (s.putIrq { s.irq with pollWaiting := false })
    else s

/-- The line's record after a post or a poll's answer: in service unless auto-end, an EDGE line's pending cleared, the overrun
mark cleared (R138, R145). -/
def LineRec.delivered (r : LineRec) : LineRec :=
  { r with
    inService := if r.autoEnd then r.inService else true
    pending := if r.level then r.pending else false
    overrun := false }

/-- The poll's answer is formed once its drain is complete (R145). -/
def answerPoll (s : State) : State :=
  match s.irq.poll with
  | some p =>
    if p.waits.complete then
      let r := s.lineRec p.line
      endRequest .ok 0 (pad8 [BitVec.ofNat 8 p.line.num, if r.overrun then 1 else 0])
        ((s.putLine p.line r.delivered).putIrq
          { (s.putLine p.line r.delivered).irq with poll := none })
    else s
  | none => s

/-- With no candidate, no poll selection and no poll waiting, the highest eligible line becomes the candidate (R136). -/
def selectCandidate (s : State) : State :=
  if s.irq.delivery.isNone && s.irq.poll.isNone && !s.irq.pollWaiting then
    match bestEligible s with
    | none => s
    | some l =>
      let d := (s.lineRec l).drain
      let m := drainsMaster d s
      let w := drainWaits d m s
      let s' := makeDrain d m s
      s'.putIrq { s'.irq with delivery := some { line := l, posting := false, waits := w, causes := [] } }
  else s

/-- When every wait is complete the candidate passes to POSTING (R137). -/
def postReady (s : State) : State :=
  match s.irq.delivery with
  | some d =>
    if d.waits.complete then s.putIrq { s.irq with delivery := some { d with posting := true } } else s
  | none => s

/-- The interrupt unit weighs eligibility afresh and does all that follows at once (R135 to R137, R139, R144, R145). -/
def weighLines (s : State) : State := postReady (selectCandidate (answerPoll (repoll (dropDelivery s))))

end Sys2Proof.Machine
end

