-- ==== Sys2Proof/Machine/BusCycles.lean ====
section
/-! DEFINITION. What the ends of unit and refresh cycles do, the READY and CHECK faults of the board's own cycles (01, 04, 05), and
the expiries of its timers. -/

namespace Sys2Proof.Machine

/-- A SLOT FAULT becomes owed; one already owed keeps its first content (R15, R166). -/
def oweSlotFault (k : Cause) (ofRefresh : Bool) (addr : Option Nat) (s : State) : State :=
  match s.slot.slotFault with
  | some _ => s
  | none => s.putSlot { s.slot with slotFault := some { cause := k, ofRefresh := ofRefresh, addr := addr } }

/-! ## Unit cycles (R60, R61, R83) -/

/-- The bytes of a unit reach staging, or are consumed (R83 step 2); a map fault is told. R8 names no half of the data lines for the one
byte of a byte channel's unit: it is the low half of the operand, at an odd L too (log entry 37). -/
def moveUnit (c : Chan) (bytes : List Byte) (l : Nat) (s : State) : State × Option ChanFault :=
  match (s.chan c).dir with
  | .toMemory => placeUnit c (bytes.take c.unit) l s
  | .fromMemory => (consumeUnit c s, none)
  | .verify => (s, none)

/-- A fault is recorded if there is one (R94). -/
def recordIf (f : Option ChanFault) (a : Nat) (c : Chan) (s : State) : State :=
  match f with
  | some k => recordFault k a c s
  | none => s

/-- One unit more since the host path last held the bus, up to 255 (R60). -/
def countUnit (s : State) : State := s.putArb { s.arb with dmaCount := min 255 (s.arb.dmaCount + 1) }

/-- The mode lets the tenure go on after a unit (R84, R85, R86). -/
def modeGoesOn (c : Chan) (tc : Bool) (s : State) : Bool :=
  match (s.chan c).mode with
  | .single => false
  | .demand => requestActive c s
  | .block => !tc || (s.pins.dreq.get c && s.slot.line ≠ .asserted)
  | .master => false

/-- The next unit of the tenure begins: the mask is clear, the mode goes on, no condition of R60 holds, staging serves (R83). -/
def unitGoesOn (c : Chan) (tc : Bool) (s : State) : Bool :=
  (s.chan c).state = .active && modeGoesOn c tc s && s.refresh.owed = 0 &&
    !limitHolds s && canServe c s

/-- The tenure goes on into the next unit, a BLOCK channel's block run set again (R86), or ends and the arbiter grants (R60). -/
def continueDma (c : Chan) (tc : Bool) (s : State) : State :=
  if unitGoesOn c tc s then
    let ch := s.chan c
    let s' := s.putChan c { ch with blockRun := ch.blockRun || ch.mode = .block }
    beginCycle (unitCycle c s') s'
  else kickBus (endDmaTenure c s)

/-- A unit counts: its bytes, its step, its terminal count, its faults, stop-on-fault (R83 steps 2 to 5). -/
def performUnit (c : Chan) (cyc : Cycle) (bytes : List Byte) (s : State) : State :=
  let (s1, mapFault) := moveUnit c bytes cyc.addr s
  let s2 := recordIf mapFault cyc.addr c s1
  let s3 := s2.putChan c (s2.chan c).step
  let s4 := if cyc.tc then terminalCount c s3 else s3
  let s5 := if cyc.ready then recordFault .ready cyc.addr c s4 else s4
  let s6 := if cyc.check then recordFault .check cyc.addr c s5 else s5
  if mapFault.isSome || cyc.ready || cyc.check then stopOnFault c s6 else s6

/-- The unit cycle of `c` ends (R60, R83); the result of one PART RESET has discarded changes nothing but the tenure (R96). -/
def endUnitCycle (c : Chan) (cyc : Cycle) (bytes : List Byte) (s : State) : State :=
  if cyc.discard then kickBus (endDmaTenure c (countUnit s))
  else
    let s1 := countUnit (performUnit c cyc bytes s)
    continueDma c cyc.tc (s1.putSlot { s1.slot with lastAddr := some cyc.addr })

/-! ## Refresh cycles (R66) -/

/-- The refresh cycle ends: the row advances, the owed count falls, and at 0 the tenure ends with its episode (R66). -/
def endRefreshCycle (cyc : Cycle) (s : State) : State :=
  let s1 := { s with refresh := { s.refresh with row := s.refresh.row + 1, owed := s.refresh.owed - 1 } }
  let s2 := s1.putSlot { s1.slot with lastAddr := some cyc.addr }
  if s2.refresh.owed = 0 then
    kickBus (freeBus { s2 with refresh := { s2.refresh with episode := false } })
  else beginCycle (refreshCycle s2) s2

/-! ## The end of any cycle the board drives (R11) -/

/-- The cycle in progress ends with what stands on the data lines. -/
def endCycle (cyc : Cycle) (data : BusWord) (s : State) : State :=
  match cyc.owner with
  | .hostPath => endHostCycle cyc (busBytes data) s
  | .dma c => endUnitCycle c cyc (busBytes data) s
  | .refresh => endRefreshCycle cyc s
  | .free => s
  | .master => s

/-- The last clock of a cycle of the kind has come: with ready high it ends, with ready low it is EXTENDED and the ready timer
starts against the limit now in force (R11). -/
def lastClock (mine : Cycle → Bool) (sense ready : Bool) (data : BusWord) (s : State) : State :=
  match s.slot.cycle with
  | some cyc =>
    if cyc.phase = .running && mine cyc then
      let cyc' := cyc.sensed sense
      if ready then endCycle cyc' data s
      else s.putSlot { s.slot with
        cycle := some { cyc' with phase := .extended }
        readyTimer := some { limit := setReadyLimit s.settings, elapsed := 0 } }
    else s
  | none => s

/-- The card releases the ready line of an EXTENDED cycle (R11). -/
def releaseReady (data : BusWord) (s : State) : State :=
  match s.slot.cycle with
  | some cyc => if cyc.phase = .extended then endCycle cyc data s else s
  | none => s

/-- The transfer takes a fault, if there is a transfer. -/
def faultXfer (k : Cause) (s : State) : State := { s with xfer := s.xfer.map (fun x => x.fault k) }

/-- The ready limit ends an EXTENDED cycle of the board: FFh read, writes lost, a READY fault for its owner (R11, R12). -/
def expireCycle (cyc : Cycle) (s : State) : State :=
  let cyc' := { cyc with ready := true }
  match cyc.owner with
  | .hostPath => endCycle cyc' 0xFFFF (faultXfer .ready s)
  | .dma _ => endCycle cyc' 0xFFFF s
  | .refresh => endCycle cyc' 0xFFFF (oweSlotFault .ready true (some cyc.addr) s)
  | .free => s
  | .master => s

/-- The ready timer reaches the ready limit (R11, R121, R124). -/
def readyExpiry (s : State) : State :=
  match s.slot.cycle with
  | some cyc => if cyc.phase = .extended then expireCycle cyc s else s
  | none => expireHeld s

/-! ## The card check line (R14, R15) -/

/-- The address the latch records: of the cycle in progress, or, between two cycles, of the last one completed; for MASTER the
last master address; none without an owner (R14). -/
def checkAddr (between : Bool) (s : State) : Option Nat :=
  match s.arb.owner with
  | .free => none
  | .master => s.arb.lastMaster
  | .hostPath | .dma _ | .refresh =>
    if between && s.slot.lastAddr.isSome then s.slot.lastAddr
    else s.slot.cycle.map Cycle.addr

/-- The cycle in progress gains a CHECK fault (R2, R15). -/
def markCheck (s : State) : State :=
  s.putSlot { s.slot with cycle := s.slot.cycle.map (fun cyc => { cyc with check := true }) }

/-- A check charged to the host path's cycle in progress (R30): a second fault on a cycle changes nothing. -/
def checkHost (s : State) : State :=
  match s.slot.cycle with
  | some cyc => if cyc.check || cyc.ready then s else markCheck (faultXfer .check s)
  | none => s

/-- A check charged to the last host-path cycle completed: under HALT the tenure ends at once (R30, R31, R32). -/
def checkHostBetween (s : State) : State :=
  match s.xfer with
  | none => s
  | some x =>
    let y := x.checkLast
    if y.stopped then endHostTenure y s else { s with xfer := some y }

/-- A check charged to the last unit completed of a tenure of `c`: recorded at once; a channel it masks ends its tenure at the
boundary, before the next unit (R15, R76, R95). -/
def checkUnitBetween (c : Chan) (a : Nat) (s : State) : State :=
  let s' := unitFault .check a c s
  if (s.chan c).state = .active && (s'.chan c).state ≠ .active then kickBus (endDmaTenure c s') else s'

/-- The cycle in progress is a unit whose result PART RESET has discarded, so no fault of it is recorded (R96). -/
def discarded (s : State) : Bool :=
  match s.slot.cycle with
  | some cyc => cyc.discard
  | none => false

/-- A check is charged to the owner of the bus (R15). One charged to REFRESH owes its SLOT FAULT and leaves the fault field of the
cycle's record as it is (log entry 38). -/
def chargeCheck (between : Bool) (s : State) : State :=
  let last := between && s.slot.lastAddr.isSome
  match s.arb.owner with
  | .hostPath => if last then checkHostBetween s else checkHost s
  | .dma c => if last && !discarded s then checkUnitBetween c (s.slot.lastAddr.getD 0) s else markCheck s
  | .master =>
    match s.arb.masterChan with
    | some c => unitFault .check (s.arb.lastMaster.getD 0) c s
    | none => s
  | .refresh => oweSlotFault .check true (checkAddr between s) s
  | .free => oweSlotFault .check false none s

/-- A rising edge of the card check line: latched, then charged; not acted on while the slot reset line is ASSERTED (R14). -/
def checkEdge (between : Bool) (s : State) : State :=
  if s.slot.line = .asserted then s
  else chargeCheck between (s.putSlot { s.slot with latch := { owner := s.arb.owner, addr := checkAddr between s } })

/-! ## Timers (R63, R65, R109) -/

/-- The refresh timer runs (R64). -/
def refreshRuns (s : State) : Bool := s.slot.line ≠ .asserted && setRefreshPeriod s.settings ≠ 0

/-- The refresh timer expires: it starts again, and the owed count rises, or the refresh is lost (R64, R65). -/
def refreshExpiry (s : State) : State :=
  if refreshRuns s then
    let r := { s.refresh with timer := 0 }
    if r.owed < Config.refreshOwedMax then kickBus { s with refresh := { r with owed := r.owed + 1 } }
    else if r.episode then { s with refresh := r }
    else { s with refresh := { r with episode := true, late := true } }
  else s

/-- MASTER FAULT LONG becomes owed and long reported is set (R63). -/
def masterLong (s : State) : State :=
  let s' := masterFault .long (s.arb.lastMaster.getD 0) s
  s'.putArb { s'.arb with longReported := true }

/-- The meter can report: a master tenure, a limit other than 0, not yet reported (R63). -/
def holdArmed (s : State) : Bool :=
  s.arb.owner = .master && setMasterHold s.settings ≠ 0 && !s.arb.longReported

/-- The master hold meter reaches the master hold limit (R63). -/
def masterHoldExpiry (s : State) : State :=
  if holdArmed s then
    masterLong (s.putArb { s.arb with meter := max s.arb.meter (setMasterHold s.settings) })
  else s

/-- The age of the channel's open run reaches the staging age limit: a flush demand (R109). -/
def ageExpiry (c : Chan) (s : State) : State :=
  if setAgeLimit s.settings ≠ 0 && (s.stage c).opened.isSome then flushDemand c s else s

end Sys2Proof.Machine
end

