-- ==== Sys2Proof/Machine/Cards.lean ====
section
/-! DEFINITION. What the cards do (05, 07, 08): request lines, interrupt lines, and the memory cycles of a master card. -/

namespace Sys2Proof.Machine

/-! ## DMA request lines (R62, R71) -/

/-- The level a card drives on a request line. -/
def setDreq (c : Chan) (level : Bool) (s : State) : State :=
  { s with pins := { s.pins with dreq := s.pins.dreq.put c level } }

/-- A request line rises: an unmasked channel is placed, and the arbiter may grant (R57, R71). -/
def requestRise (c : Chan) (s : State) : State :=
  if s.pins.dreq.get c then s else kickBus (placeChan true c (setDreq c true s))

/-- A request line falls: the master tenure it held ends (R62, R87), or an unmasked channel is placed (R71). -/
def requestFall (c : Chan) (s : State) : State :=
  if s.pins.dreq.get c then
    let s' := setDreq c false s
    if s'.arb.owner = .master && s'.arb.masterChan = some c then kickBus (endMasterTenure c s')
    else kickBus (placeChan true c s')
  else s

/-! ## Slot interrupt lines (R131 to R133) -/

/-- The level a card drives on an interrupt line. -/
def setIrq (l : Line) (level : Bool) (s : State) : State :=
  { s with pins := { s.pins with irq := s.pins.irq.put l level } }

/-- A rise captured: an EDGE line's pending, or its overrun mark; a LEVEL line's pending (R131, R132). -/
def LineRec.rise (r : LineRec) : LineRec :=
  if r.level then { r with pending := true }
  else if r.pending then { r with overrun := true }
  else { r with pending := true }

/-- A fall captured: a LEVEL line's pending clears (R132). -/
def LineRec.fall (r : LineRec) : LineRec := if r.level then { r with pending := false } else r

/-- An interrupt line rises; while the slot reset line is ASSERTED nothing is captured (R133). -/
def lineRise (l : Line) (s : State) : State :=
  if s.pins.irq.get l then s
  else
    let s' := setIrq l true s
    if s'.slot.line = .asserted then s' else weighLines (s'.putLine l (s'.lineRec l).rise)

/-- An interrupt line falls (R132). -/
def lineFall (l : Line) (s : State) : State :=
  if s.pins.irq.get l then
    let s' := setIrq l false s
    if s'.slot.line = .asserted then s' else weighLines (s'.putLine l (s'.lineRec l).fall)
  else s

/-! ## The memory cycles of a master card (R118 to R123) -/

/-- A card drives a memory cycle: it holds the bus and its last cycle is not held. -/
def cardDrives (s : State) : Bool := s.arb.owner = .master && s.master.stretched.isNone

/-- The arbiter keeps the address of the cycle, answered or not (R62). -/
def noteMaster (a : Nat) (s : State) : State := s.putArb { s.arb with lastMaster := some a }

/-- The cycle moves two bytes: a word attempt at an even address (R118). -/
def masterWide (addr : BitVec 24) (wide : Bool) : Bool := wide && addr.toNat % 2 = 0

/-- Bytes a master cycle moves (R118). -/
def masterLen (addr : BitVec 24) (wide : Bool) : Nat := if masterWide addr wide then 2 else 1

/-- The port holds the cycle with the ready line, and its ready timer runs against the limit now in force (R118, R121, R123). -/
def stretch (kind : HeldKind) (a e h : Nat) (s : State) : State :=
  let timer : ReadyTimer := { limit := setReadyLimit s.settings, elapsed := 0 }
  s.putMaster { s.master with stretched := some { kind := kind, addr := a, entry := e, host := h, timer := timer } }

/-- A mapped write with access is posted, or held when the buffer is full (R120, R121). -/
def acceptWrite (a : Nat) (bytes : List Byte) (e h : Nat) (s : State) : State :=
  if s.master.buffer.length < Config.masterEntries then postWrite a bytes e h s
  else stretch (.write bytes) a e h s

/-- A master write cycle (R118, R120). -/
def masterWrite (addr : BitVec 24) (wide : Bool) (data : BusWord) (s : State) : State :=
  if cardDrives s then
    let a := addr.toNat
    let s' := noteMaster a s
    match lookupMap s'.map a .write with
    | .miss => s'
    | .denied => masterFault .hostError a s'
    | .found e h => acceptWrite a ((busBytes data).take (masterLen addr wide)) e h s'
  else s

/-- The port's answer on the data lines, without holding the cycle. -/
def answerRead (bytes : List Byte) (s : State) : State :=
  s.putMaster { s.master with answered := some bytes }

/-- The outstanding fill is for the read's line and is not to be ignored (R123). -/
def fillServes (a : Nat) (f : Fill) : Bool := f.addr = lineBase a && !f.ignored

/-- A read miss: the buffer is decided, and the read waits for a fill of its line (R123). -/
def readMiss (a len e h : Nat) (s : State) : State :=
  let s' := decideAll s
  match s'.master.fill with
  | none => formFill a e h false (stretch (.read len false) a e h s')
  | some f =>
    if fillServes a f then stretch (.read len false) a e h s'
    else stretch (.read len true) a e h (s'.putMaster { s'.master with fill := some { f with ignored := true } })

/-- A mapped read with access is answered from the read line, or misses (R123). -/
def acceptRead (a len e h : Nat) (s : State) : State :=
  match lineHit a len s with
  | some bytes => answerRead bytes s
  | none => readMiss a len e h s

/-- A master read cycle (R118, R123). -/
def masterRead (addr : BitVec 24) (wide : Bool) (s : State) : State :=
  if cardDrives s then
    let a := addr.toNat
    let len := masterLen addr wide
    let s' := noteMaster a s
    match lookupMap s'.map a .read with
    | .miss => s'
    | .denied => masterFault .hostError a (answerRead (allOnes len) s')
    | .found e h => acceptRead a len e h s'
  else s

/-! ## The commands -/

/-- DMA_REQUEST_RISE (R71). -/
def execDmaRequestRise (c : Chan) (s : State) : Host.Outcome State Fault Refusal := .next (requestRise c s)

/-- DMA_REQUEST_FALL (R71). -/
def execDmaRequestFall (c : Chan) (s : State) : Host.Outcome State Fault Refusal := .next (requestFall c s)

/-- INTERRUPT_LINE_RISE (R131). -/
def execInterruptLineRise (l : Line) (s : State) : Host.Outcome State Fault Refusal := .next (lineRise l s)

/-- INTERRUPT_LINE_FALL (R132). -/
def execInterruptLineFall (l : Line) (s : State) : Host.Outcome State Fault Refusal := .next (lineFall l s)

/-- MASTER_WRITE_CYCLE (R120). -/
def execMasterWriteCycle (addr : BitVec 24) (wide : Bool) (data : BusWord) (s : State) :
    Host.Outcome State Fault Refusal :=
  .next (masterWrite addr wide data s)

/-- MASTER_READ_CYCLE (R123). -/
def execMasterReadCycle (addr : BitVec 24) (wide : Bool) (s : State) : Host.Outcome State Fault Refusal :=
  .next (masterRead addr wide s)

/-- MASTER_HELD_WRITE_POST (R121). -/
def execMasterHeldWritePost (s : State) : Host.Outcome State Fault Refusal := .next (postHeld s)

/-- MASTER_WRITE_DECIDE (R122). -/
def execMasterWriteDecide (s : State) : Host.Outcome State Fault Refusal := .next (masterDecide s)

end Sys2Proof.Machine
end

