-- ==== Sys2Proof/Machine/ChannelRequests.lean ====
section
/-! DEFINITION. The requests to channels (05): CHANNEL PROGRAM, NEXT, MASK, REQUEST and STATUS. -/

namespace Sys2Proof.Machine

/-- The channel a request names in its sub-field byte (R73). -/
def recordChan (r : Record) : Option Chan := Chan.ofNum r.sub.toNat

/-! ## CHANNEL PROGRAM (R74) -/

/-- The record that CHANNEL PROGRAM leaves: programmed fields and counts loaded, every other field clear, IDLE (R74). -/
def programmed (r : Record) (d : Direction) (threshold limit : Nat) : Channel :=
  let b := recordBlock r
  { Channel.reset with
    mode := modeOf r.addr, dir := d, decrement := bit r.addr 4, autoReload := bit r.addr 5, quiet := bit r.addr 6,
    stopOnFault := bit r.addr 7, threshold := threshold, limit := limit, page := b.page, baseAddr := b.addr,
    baseCount := b.count, curAddr := b.addr, curCount := b.count }

/-- CHANNEL PROGRAM: operand checks, then BUSY unless IDLE or DONE, then the load (R73, R74). -/
def channelProgram (r : Record) (s : State) : State :=
  match recordChan r, modeWord r.addr, recordBlockGood r with
  | some c, some (d, threshold, limit), true =>
    if (s.chan c).state.atRest then
      answerPlain .ok (startCursor c (s.putChan c (programmed r d threshold limit)))
    else answerPlain .busy s
  | some _, some _, false => answerPlain .badRequest s
  | some _, none, _ => answerPlain .badRequest s
  | none, _, _ => answerPlain .badRequest s

/-! ## CHANNEL NEXT (R75) -/

/-- The next block is held; a FROM MEMORY channel's cursor follows, and what it discards may stall the channel (R75, R116). -/
def holdNext (c : Chan) (b : Block) (s : State) : State :=
  let s1 := s.putChan c { s.chan c with nextBlock := some b }
  let s2 := if (s.chan c).dir = .fromMemory then cursorNext c b s1 else s1
  placeChan false c s2

/-- CHANNEL NEXT (R73, R75). -/
def channelNext (r : Record) (s : State) : State :=
  match recordChan r, recordBlockGood r with
  | some c, true =>
    if (s.chan c).mode = .master then answerPlain .badRequest s
    else if (s.chan c).nextBlock.isSome then answerPlain .collision s
    else answerPlain .ok (holdNext c (recordBlock r) s)
  | some _, false => answerPlain .badRequest s
  | none, _ => answerPlain .badRequest s

/-! ## CHANNEL MASK (R76, R78, R79) -/

/-- CHANNEL MASK set: every named channel is masked, and the request waits for them all (R76, R79). -/
def channelMaskSet (r : Record) (s : State) : State :=
  if !chanMarksGood r.addr then answerPlain .badRequest s
  else
    let m := chanMarks r.addr 0
    maskCheck (setWork (.maskSet m) (forChans (fun c x => if m.get c then maskChan c x else x) s))

/-- A channel is STOPPING. -/
def ChanState.isStopping : ChanState → Bool
  | .stopping _ => true
  | .idle | .finished | .waiting | .ready | .active | .stalled | .mastered => false

/-- The channels whose clear waits for their stopping (R78). -/
def waitingClears (m : PerChan Bool) (s : State) : PerChan Bool :=
  PerChan.ofFn (fun c => m.get c && (s.chan c).state.isStopping)

/-- CHANNEL MASK clear: every named channel is unmasked, those STOPPING when their stopping ends (R78, R79). All are placed before the
arbiter grants a free bus, so of several that become READY the highest in the priority order is granted (log entry 48). -/
def channelMaskClear (r : Record) (s : State) : State :=
  if !chanMarksGood r.addr then answerPlain .badRequest s
  else
    let m := chanMarks r.addr 0
    let s' := forChans (fun c x => if m.get c then clearMask c x else x) s
    kickBus (maskCheck (setWork (.maskClear m (waitingClears m s)) s'))

/-! ## CHANNEL REQUEST (R80) -/

/-- The soft request is set or cleared, and the channel placed; a fault that the placing records is the request's doing (R50, R71, R80). -/
def setSoft (on : Bool) (c : Chan) (s : State) : State :=
  causing (fun x => placeChan true c (x.putChan c { x.chan c with soft := on })) s

/-- CHANNEL REQUEST (R73, R80). -/
def channelRequest (on : Bool) (r : Record) (s : State) : State :=
  match recordChan r with
  | none => answerPlain .badRequest s
  | some c =>
    if (s.chan c).mode = .master then answerPlain .badRequest s
    else answerPlain .ok (kickBus (setSoft on c s))

/-! ## CHANNEL STATUS (R81) -/

/-- Byte 1 of the status data: mask, soft request, request line, block run, next held, TC flag (R174). -/
def statusFlags (c : Chan) (s : State) : Nat :=
  let ch := s.chan c
  flagBit ch.mask 0 + flagBit ch.soft 1 + flagBit (s.pins.dreq.get c) 2 + flagBit ch.blockRun 3 +
    flagBit ch.nextBlock.isSome 4 + flagBit ch.tcFlag 5

/-- The data bytes of CHANNEL STATUS (R81, R174). -/
def statusData (c : Chan) (s : State) : List Byte :=
  let ch := s.chan c
  [BitVec.ofNat 8 (ch.state.code + flagBit ch.state.toDone 4), BitVec.ofNat 8 (statusFlags c s), ch.page,
   ch.faults.setWidth 8] ++ le16 ch.curAddr.toNat ++ le16 ch.curCount.toNat

/-- The option to clear the TC flag (R81). -/
def clearTc (clear : Bool) (c : Chan) (s : State) : State :=
  if clear then s.putChan c { s.chan c with tcFlag := false } else s

/-- CHANNEL STATUS (R81). -/
def channelStatus (r : Record) (s : State) : State :=
  match recordChan r with
  | none => answerPlain .badRequest s
  | some c => endRequest .ok (stagedCount c s) (statusData c s) (clearTc (flag1 r) c s)

/-! ## The commands -/

/-- CHANNEL_PROGRAM (R74). -/
def execChannelProgram (s : State) : Host.Outcome State Fault Refusal :=
  .next (whenTaken (ofKind .channelProgram) channelProgram s)

/-- CHANNEL_NEXT (R75). -/
def execChannelNext (s : State) : Host.Outcome State Fault Refusal :=
  .next (whenTaken (ofKind .channelNext) channelNext s)

/-- CHANNEL_MASK_SET (R76). -/
def execChannelMaskSet (s : State) : Host.Outcome State Fault Refusal :=
  .next (whenTaken (fun r => r.kind = .channelMask && flag1 r) channelMaskSet s)

/-- CHANNEL_MASK_CLEAR (R78). -/
def execChannelMaskClear (s : State) : Host.Outcome State Fault Refusal :=
  .next (whenTaken (fun r => r.kind = .channelMask && !flag1 r) channelMaskClear s)

/-- CHANNEL_REQUEST_SET (R80). -/
def execChannelRequestSet (s : State) : Host.Outcome State Fault Refusal :=
  .next (whenTaken (fun r => r.kind = .channelRequest && flag1 r) (channelRequest true) s)

/-- CHANNEL_REQUEST_CLEAR (R80). -/
def execChannelRequestClear (s : State) : Host.Outcome State Fault Refusal :=
  .next (whenTaken (fun r => r.kind = .channelRequest && !flag1 r) (channelRequest false) s)

/-- CHANNEL_STATUS (R81). -/
def execChannelStatus (s : State) : Host.Outcome State Fault Refusal :=
  .next (whenTaken (ofKind .channelStatus) channelStatus s)

end Sys2Proof.Machine
end

