-- ==== Sys2Proof/Machine/ReturnWriter.lean ====
section
/-! DEFINITION. The return writer (10): when a record can be written, what it holds (R174), who writes next (R165), and what its
owner does once it is written (R162). -/

namespace Sys2Proof.Machine

/-! ## The ring (R162) -/

/-- W - C, modulo 2^32 (R162). -/
def uncredited (r : ReturnWriter) : Nat := (r.w - r.c).toNat

/-- The ring is set and not full (R162). -/
def canWrite (s : State) : Bool := s.ret.ringSet && uncredited s.ret < s.ret.size

/-- The phase flag of the next record: 1 if W div size is even (R162). -/
def phaseFlag (r : ReturnWriter) : Bool := r.w.toNat / r.size % 2 = 0

/-- The host address of the next slot (R162). RING SET checks no range, so the address of a slot may run on past the last host
address, and the model does not wrap it (log entry 47). -/
def slotAddr (r : ReturnWriter) : Nat := r.base.toNat + 16 * (r.w.toNat % r.size)

/-! ## Records (R174) -/

/-- A return record without its phase flag: kind, bytes 1 to 3, bytes 4 to 7, bytes 8 to 15. -/
structure Return where
  kind : Nat
  b1   : Byte
  b2   : Byte
  b3   : Byte
  mid  : Nat
  tail : List Byte
deriving DecidableEq, Repr

/-- The sixteen bytes of a record (R174). -/
def Return.bytes (r : Return) (phase : Bool) : List Byte :=
  [BitVec.ofNat 8 (r.kind + flagBit phase 7), r.b1, r.b2, r.b3] ++ le32 r.mid ++ pad8 r.tail

/-- A truth value as bit 0 of a byte. -/
def bit0 (b : Bool) : Byte := if b then 1 else 0

/-- RESPONSE (R39, R174). -/
def responseRecord (tag kind : Byte) (a : Answer) : Return :=
  { kind := 1, b1 := tag, b2 := kind, b3 := a.status.code, mid := a.count, tail := a.data }

/-- LINE (R138, R174). -/
def lineRecord (l : Line) (r : LineRec) : Return :=
  { kind := 2, b1 := BitVec.ofNat 8 l.num, b2 := bit0 r.overrun, b3 := 0, mid := 0, tail := [] }

/-- CHANNEL END (R93, R174). -/
def endRecord (c : Chan) (ch : Channel) : Return :=
  { kind := 3, b1 := BitVec.ofNat 8 c.num, b2 := BitVec.ofNat 8 ch.tcOwed, b3 := bit0 ch.nextTaken,
    mid := 0, tail := [] }

/-- CHANNEL FAULT (R94, R174). -/
def faultRecord (c : Chan) (ch : Channel) : Return :=
  { kind := 4, b1 := BitVec.ofNat 8 c.num, b2 := ch.owedFaults.setWidth 8, b3 := 0,
    mid := ch.owedAddr.toNat, tail := le32 ch.firstFault.toNat }

/-- SLOT FAULT (R15, R174). With no address, bytes 4 to 7 hold 0 (log entry 50). -/
def slotRecord (f : SlotFault) : Return :=
  { kind := 5, b1 := f.cause.code, b2 := bit0 f.ofRefresh, b3 := bit0 f.addr.isSome,
    mid := f.addr.getD 0, tail := [] }

/-- MASTER FAULT (R126, R174). -/
def masterRecord (f : MasterFault) : Return :=
  { kind := 6, b1 := BitVec.ofNat 8 (flagBit f.ready 0 + flagBit f.hostError 1 + flagBit f.long 2),
    b2 := 0, b3 := 0, mid := f.addr, tail := [] }

/-- REFRESH LATE (R65, R174). -/
def lateRecord : Return := { kind := 7, b1 := 0, b2 := 0, b3 := 0, mid := 0, tail := [] }

/-- INTAKE FAULT (R161, R174). -/
def intakeRecord (k : DiscardCause) (discards : Nat) : Return :=
  { kind := 8, b1 := k.code, b2 := BitVec.ofNat 8 discards, b3 := 0, mid := 0, tail := [] }

/-! ## Writing one record (R162) -/

/-- An MSI is decided when it is sent; with MSI disabled it is not sent (R103, R162). -/
def sendMsi (s : State) : State := if s.host.msiEnabled then decideWrite .msi 0 [] s else s

/-- The record takes the next slot, W rises by 1, and with notice armed the MSI follows and notice is disarmed (R162). -/
def putRecord (r : Return) (s : State) : State :=
  let s1 := decideWrite .record (slotAddr s.ret) (r.bytes (phaseFlag s.ret)) s
  let s2 := { s1 with ret := { s1.ret with w := s1.ret.w + 1, armed := false } }
  if s.ret.armed then sendMsi s2 else s2

/-! ## Who writes next (R165) -/

inductive Source where
  | response (e : Exec)
  | control (c : Control)
  | post (l : Line)
  | chanFault (c : Chan)
  | chanEnd (c : Chan)
  | masterFault (f : MasterFault)
  | slotFault (f : SlotFault)
  | refreshLate
  | intakeFault (k : DiscardCause)
deriving DecidableEq, Repr

/-- A record that the request `n` caused is still to be written (R50, log entry 41). -/
def unwritten (s : State) (n : Nat) : Bool :=
  s.irq.delivery.any (fun d => d.causes.contains n) || Chan.all.any (fun c => (s.chan c).faultCauses.contains n) ||
    s.master.owedFault.any (fun f => f.causes.contains n)

/-- A record that the request in flight caused goes ahead of this abort's answer (R50). -/
def Control.heldBack (s : State) (c : Control) : Bool := c.behind.any (unwritten s)

/-- The response of the request in flight. -/
def responseSource (s : State) : Option Source := s.queue.exec.map Source.response

/-- The sequencer's place (R46). While a record goes ahead of the abort's answer that has it, a response that waits has it (R50, R137,
R145, log entry 41). -/
def sequencerSource (s : State) : Option Source :=
  match s.queue.place with
  | .response => responseSource s
  | .control =>
    if s.queue.controls.head?.any (Control.heldBack s) then (if responseWaits s.queue then responseSource s else none)
    else s.queue.controls.head?.map Source.control
  | .empty => none

/-- The interrupt unit's post of its candidate (R137). -/
def postSource (s : State) : Option Source :=
  match s.irq.delivery with
  | some d => if d.posting then some (.post d.line) else none
  | none => none

/-- A channel's owed records, CHANNEL FAULT first (R165). -/
def chanSource (s : State) (c : Chan) : Option Source :=
  if (s.chan c).owedFaults ≠ 0 then some (.chanFault c)
  else if 0 < (s.chan c).tcOwed then some (.chanEnd c)
  else none

/-- The first waiting source (R165); R50 puts an abort's answer behind the records its request caused (log entry 41). -/
def nextSource (s : State) : Option Source :=
  sequencerSource s <|> postSource s <|> Chan.all.findSome? (chanSource s) <|>
    s.master.owedFault.map Source.masterFault <|> s.slot.slotFault.map Source.slotFault <|>
    (if s.refresh.late then some .refreshLate else none) <|> s.intake.owed.map Source.intakeFault

/-- The record a source holds at this moment (R165). -/
def Source.record (s : State) : Source → Return
  | .response e => responseRecord e.request.tag e.request.kind.code e.answer
  | .control c => responseRecord c.tag c.kind c.answer
  | .post l => lineRecord l (s.lineRec l)
  | .chanFault c => faultRecord c (s.chan c)
  | .chanEnd c => endRecord c (s.chan c)
  | .masterFault f => masterRecord f
  | .slotFault f => slotRecord f
  | .refreshLate => lateRecord
  | .intakeFault k => intakeRecord k s.intake.discards

/-- The head of the list of control answers has been written (R46). The entry behind it begins to wait now that it is the head, and a
response that waits already goes first (log entry 52). -/
def Queue.controlWritten (q : Queue) : Queue := claimPlace { q with controls := q.controls.tail, place := .empty, tied := false }

/-- The candidate's post has been written (R138); what follows of eligibility follows at once (R136, R144). -/
def posted (l : Line) (s : State) : State :=
  let s' := s.putLine l (s.lineRec l).delivered
  weighLines (s'.putIrq { s'.irq with delivery := none })

/-- What its owner does when a source's record has been written (R162). -/
def Source.told (s : State) : Source → State
  | .response _ => retire s
  | .control _ => s.putQueue s.queue.controlWritten
  | .post l => posted l s
  | .chanFault c => s.putChan c { s.chan c with owedFaults := 0, owedAddr := 0, faultCauses := [] }
  | .chanEnd c => s.putChan c { s.chan c with tcOwed := 0, nextTaken := false }
  | .masterFault _ => s.putMaster { s.master with owedFault := none }
  | .slotFault _ => s.putSlot { s.slot with slotFault := none }
  | .refreshLate => { s with refresh := { s.refresh with late := false } }
  | .intakeFault _ => { s with intake := { s.intake with discards := 0, owed := none } }

/-- The first waiting source's record is written, if one can be (R165). -/
def writeNext (s : State) : State :=
  if canWrite s then
    match nextSource s with
    | some src => src.told (putRecord (src.record s) s)
    | none => s
  else s

/-- RETURN_RECORD_WRITE (R165). -/
def execReturnRecordWrite (s : State) : Host.Outcome State Fault Refusal := .next (writeNext s)

end Sys2Proof.Machine
end

