-- ==== Sys2Proof/Machine/Intake.lean ====
section
/-! DEFINITION. The link interface and intake (10, 03): what the board does with each write to the aperture. -/

namespace Sys2Proof.Machine

/-! ## Discards (R161) -/

/-- A discard: the flag, the count, and the owed INTAKE FAULT (R161). -/
def discard (k : DiscardCause) (s : State) : State :=
  { s with intake :=
    { fault := true, discards := min 255 (s.intake.discards + 1), owed := s.intake.owed <|> some k } }

/-- A write to the request port that is not whole aligned pieces is discarded whole (R160). -/
def malformed (offset : BitVec 12) (enables : List Bool) (s : State) : State :=
  if touchesPort offset && !wholePieces offset enables then discard .malformed s else s

/-- A record whose kind byte names no kind is discarded (R160). -/
def unknownKind (kind : Byte) (s : State) : State := if knownKind kind then s else discard .unknown s

/-! ## Queued kinds (R35) -/

/-- Intake appends a record, or discards it as FULL (R35, R160); an idle sequencer takes it (R37). -/
def appendRecord (r : Record) (s : State) : State :=
  if s.queue.records.length < Config.queueCapacity then
    takeHead (s.putQueue { s.queue.settled with records := s.queue.records ++ [r] })
  else discard .full s

/-! ## RING SET and RING CREDIT (R163, R164) -/

/-- The multiple of 16 at or below a base (R163). -/
def clampBase (base : BitVec 64) : BitVec 64 := base - BitVec.ofNat 64 (base.toNat % 16)

/-- The largest ring size not above the one asked for, and 64 below that (R163). -/
def clampSize (n : Nat) : Nat :=
  if 4096 ≤ n then 4096 else if 2048 ≤ n then 2048 else if 1024 ≤ n then 1024 else if 512 ≤ n then 512
  else if 256 ≤ n then 256 else if 128 ≤ n then 128 else 64

/-- RING SET's status (R163). -/
def ringStatus (base : BitVec 64) (size : Nat) : Status :=
  if clampBase base = base ∧ clampSize size = size then .ok else .clamped

/-- The new ring, empty and armed (R163). -/
def newRing (base : BitVec 64) (size : Nat) : ReturnWriter :=
  { ringSet := true, base := clampBase base, size := clampSize size, w := 0, c := 0, armed := true }

/-- RING SET: the new ring, with its own response in slot 0 (R163). -/
def ringSet (tag : Byte) (base : BitVec 64) (size : Nat) (s : State) : State :=
  putRecord (responseRecord tag ringSetCode ⟨ringStatus base size, clampSize size, zeros8⟩)
    { s with ret := newRing base size }

/-- The rise of C (R164). -/
def creditRise (number : Nat) (r : ReturnWriter) : Nat := min (min number 4096) (uncredited r)

/-- The arm rule: with records not yet credited the MSI goes at once, otherwise notice is armed (R164). -/
def armNotice (s : State) : State :=
  if 0 < uncredited s.ret then sendMsi { s with ret := { s.ret with armed := false } }
  else { s with ret := { s.ret with armed := true } }

/-- An answer is put in the list of control answers, unless the list is full (R46, R164). -/
def answerCredit (tag : Byte) (rise : Nat) (s : State) : State :=
  if controlsFull s then s
  else pushControl { kind := ringCreditCode, tag := tag, answer := ⟨.ok, rise, zeros8⟩, ready := true,
                     behind := none } s

/-- RING CREDIT (R164). -/
def ringCredit (tag : Byte) (respond arm clearFault : Bool) (number : Nat) (s : State) : State :=
  let rise := creditRise number s.ret
  let s1 := { s with ret := { s.ret with c := s.ret.c + BitVec.ofNat 32 rise } }
  let s2 := if arm then armNotice s1 else s1
  let s3 := if clearFault then { s2 with intake := { s2.intake with fault := false } } else s2
  if respond then answerCredit tag rise s3 else s3

/-! ## QUEUE HALT and QUEUE RESUME (R43, R44) -/

/-- An answer given at once or one that waits, if the respond flag asks for it (R46). -/
def answerControl (respond : Bool) (kind tag : Byte) (ready : Bool) (s : State) : State :=
  if respond then
    pushControl { kind := kind, tag := tag, answer := ⟨.ok, 0, zeros8⟩, ready := ready, behind := none } s
  else s

/-- The halt waits for the request in flight (R43). -/
def haltWaits (s : State) : Bool := s.queue.state = .running && s.queue.exec.isSome && !s.queue.waitHalt

/-- The queue state a halt taken with nothing in flight leaves (R43). -/
def haltedState (q : Queue) : QueueState := if q.state = .running ∧ q.exec = none then .halted else q.state

/-- QUEUE HALT (R43). -/
def queueHalt (tag : Byte) (respond : Bool) (s : State) : State :=
  if respond && controlsFull s then discard .full s
  else if haltWaits s then
    answerControl respond queueHaltCode tag false (s.putQueue { s.queue.settled with waitHalt := true })
  else answerControl respond queueHaltCode tag true (s.putQueue { s.queue.settled with state := haltedState s.queue })

/-- QUEUE RESUME (R44). The record it takes is executed in a later event (log entry 2), so its answer begins to wait ahead of that
record's response, also where the record ends at once (log entry 39). -/
def queueResume (tag : Byte) (respond : Bool) (s : State) : State :=
  if respond && controlsFull s then discard .full s
  else takeHead (answerControl respond queueResumeCode tag true (s.putQueue { s.queue.settled with state := .running }))

/-! ## QUEUE ABORT (R47 to R50) -/

/-- A request that has not started: WAITING, or taken and not yet executed (R36, R47, log entry 2). -/
def Exec.notStarted (e : Exec) : Bool := e.phase = .taken || e.phase = .waiting

/-- The abort's answer (R50, R174). -/
def abortAnswer (tag : Byte) (discarded : Nat) (inFlight : Option Record) (ready : Bool) (behind : Option Nat) : Control :=
  { kind := queueAbortCode, tag := tag, ready := ready, behind := behind
    answer := ⟨.ok, discarded,
      match inFlight with
      | some r => pad8 [1, r.kind.code, r.tag]
      | none => zeros8⟩ }

/-- The stream that completed at the moment of the abort and retired unanswered: the abort finds it ENDED, so it is not discarded
and the answer names it (R48, log entry 40). A request in WAITING that followed it is discarded, and none is named (R50). -/
def justFinished (q : Queue) : Option Record :=
  match q.exec with
  | some e => if e.phase = .waiting then none else q.finished
  | none => q.finished

/-- Nothing remains in flight: every record is discarded, the queue is HALTED, waiting halts and the abort are answered (R47). -/
def abortIdle (tag : Byte) (s : State) : State :=
  let s' := (withdrawHost s).putActive none
  s'.putQueue (claimPlace
    { s'.queue.settled with
      records := []
      exec := none
      state := .halted
      waitHalt := false
      waitAbort := false
      controls := s'.queue.controls.map Control.makeReady ++
        [abortAnswer tag s'.queue.records.length (justFinished s'.queue) true none] })

/-- A stream that has had its first grant ends at the next cycle boundary, or at once between steps (R48, R158). In any step of two byte
cycles the boundary between them is one (log entry 51). -/
def abortStream (s : State) : State :=
  if s.arb.owner = .hostPath then
    { s with xfer := s.xfer.map (fun x => { x with aborted := x.aborted || !x.stopped }) }
  else endStream .aborted false s

/-- A FENCE whose drain is not complete ends ABORTED with the bytes it covers (R49). -/
def abortFence (s : State) : State :=
  match workOf s with
  | .fence covered _ => endRequest .aborted covered zeros8 s
  | .nothing => s
  | .maskSet _ => s
  | .maskClear _ _ => s

/-- A LINE POLL whose answer is not formed ends ABORTED and lets its selection go (R49). -/
def abortPoll (s : State) : State :=
  weighLines (answerPlain .aborted (s.putIrq { s.irq with poll := none, pollWaiting := false }))

/-- The abort acts on the request in flight by its kind; any other kind completes normally (R48 to R50). -/
def abortInFlight (k : ReqKind) (s : State) : State :=
  match k with
  | .streamIn => abortStream s
  | .streamOut => abortStream s
  | .fence => abortFence s
  | .linePoll => abortPoll s
  | .portRead | .portWrite | .memoryRead | .memoryWrite | .slotReset | .channelProgram | .channelNext
  | .channelMask | .channelRequest | .channelStatus | .lineSet | .lineMask | .lineEnd | .tableWrite
  | .tableRead | .tableClear | .partReset | .identify => s

/-- A request has started and stays in flight: the records behind it are discarded, and the abort waits for it and for the records it
causes (R47, R50). -/
def abortBehind (tag : Byte) (e : Exec) (s : State) : State :=
  pushControl
    (abortAnswer tag (s.queue.records.length - 1) (if s.queue.waitAbort then none else some e.request) false
      (some s.queue.number))
    (s.putQueue { s.queue.settled with records := s.queue.records.take 1, waitAbort := true })

/-- QUEUE ABORT (R47). -/
def queueAbort (tag : Byte) (s : State) : State :=
  if controlsFull s then discard .full s
  else
    match s.queue.exec with
    | none => abortIdle tag s
    | some e =>
      if e.notStarted then abortIdle tag s
      else if s.queue.waitAbort || e.phase = .ended then abortBehind tag e s
      else abortInFlight e.request.kind (abortBehind tag e s)

/-! ## The commands -/

/-- APERTURE_WRITE_IGNORED (R159). -/
def execApertureWriteIgnored (_offset : BitVec 12) (s : State) : Host.Outcome State Fault Refusal := .next s

/-- MALFORMED (R160). -/
def execMalformed (offset : BitVec 12) (enables : List Bool) (s : State) : Host.Outcome State Fault Refusal :=
  .next (malformed offset enables s)

/-- UNKNOWN (R160). -/
def execUnknown (kind : Written Byte) (s : State) : Host.Outcome State Fault Refusal :=
  .next (inWrite kind.more (unknownKind kind.value) s)

/-- QUEUED_KIND_APPEND (R35). -/
def execQueuedKindAppend (r : Written Record) (s : State) : Host.Outcome State Fault Refusal :=
  .next (inWrite r.more (appendRecord r.value) s)

/-- RING_SET (R163). -/
def execRingSet (tag : Written Byte) (base : BitVec 64) (size : Word) (s : State) : Host.Outcome State Fault Refusal :=
  .next (inWrite tag.more (ringSet tag.value base size.toNat) s)

/-- RING_CREDIT (R164). -/
def execRingCredit (tag : Written Byte) (respond arm clearFault : Bool) (number : BitVec 16) (s : State) :
    Host.Outcome State Fault Refusal :=
  .next (inWrite tag.more (ringCredit tag.value respond arm clearFault number.toNat) s)

/-- QUEUE_HALT (R43). -/
def execQueueHalt (tag : Written Byte) (respond : Bool) (s : State) : Host.Outcome State Fault Refusal :=
  .next (inWrite tag.more (queueHalt tag.value respond) s)

/-- QUEUE_RESUME (R44). -/
def execQueueResume (tag : Written Byte) (respond : Bool) (s : State) : Host.Outcome State Fault Refusal :=
  .next (inWrite tag.more (queueResume tag.value respond) s)

/-- QUEUE_ABORT (R47). -/
def execQueueAbort (tag : Written Byte) (s : State) : Host.Outcome State Fault Refusal :=
  .next (inWrite tag.more (queueAbort tag.value) s)

end Sys2Proof.Machine
end

