-- ==== Sys2Proof/Machine/LineRequests.lean ====
section
/-! DEFINITION. The requests to interrupt lines (08): LINE SET, LINE MASK, LINE END and LINE POLL. -/

namespace Sys2Proof.Machine

/-! ## LINE SET (R140) -/

/-- The line a request names in its sub-field byte (R140, R142). -/
def recordLine (r : Record) : Option Line := Line.ofNum r.sub.toNat

/-- Trigger, mask, auto-end of a line word (R174). -/
def wordTrigger (w : Word) : Nat := field w 0 2
def wordMask (w : Word) : Bool := bit w 2
def wordAutoEnd (w : Word) : Bool := bit w 3

/-- A drain set that names no channel 4 and nothing above 7, a listed trigger, and no LEVEL line with auto-end (R140, R174). -/
def lineWordGood (w : Word) : Bool :=
  !bit w 20 && field w 24 8 = 0 && wordTrigger w ≤ 1 && !(wordTrigger w = 1 && wordAutoEnd w)

/-- The pending field when the trigger written differs: a line now LEVEL follows its line, which counts for nothing while the slot
reset line is ASSERTED (R133, R140). -/
def retriggered (level : Bool) (l : Line) (s : State) : Bool :=
  level && s.pins.irq.get l && s.slot.line ≠ .asserted

/-- The record that LINE SET writes (R140). A candidate or poll selection that turns from EDGE to LEVEL with its line high is pending
again in the same event, so it stays eligible and keeps its selection and its drain (log entry 45). -/
def lineSetTo (w : Word) (l : Line) (s : State) : LineRec :=
  let r := s.lineRec l
  let level := wordTrigger w = 1
  { level := level, mask := wordMask w, inService := r.inService, drain := chanMarks w 16, autoEnd := wordAutoEnd w
    pending := if r.level = level then r.pending else retriggered level l s
    overrun := if r.level = level then r.overrun else false }

/-- LINE SET (R140). -/
def lineSet (r : Record) (s : State) : State :=
  match recordLine r with
  | none => answerPlain .badRequest s
  | some l =>
    if lineWordGood r.addr then answerPlain .ok (causing (fun x => weighLines (x.putLine l (lineSetTo r.addr l x))) s)
    else answerPlain .badRequest s

/-! ## LINE MASK (R141) -/

/-- The marked lines' masks set or cleared. -/
def maskLines (on : Bool) (w : Word) (s : State) : State :=
  s.putIrq { s.irq with lines := PerLine.ofFn (fun l =>
    if lineMarked w l then { s.lineRec l with mask := on } else s.lineRec l) }

/-- LINE MASK (R141). -/
def lineMask (on : Bool) (r : Record) (s : State) : State :=
  if lineMarksGood r.addr then answerPlain .ok (causing (fun x => weighLines (maskLines on r.addr x)) s)
  else answerPlain .badRequest s

/-! ## LINE END (R142, R143) -/

/-- The line leaves service, and with rotate the top moves to the line that follows it (R142, R143). -/
def endService (l : Line) (rotate : Bool) (s : State) : State :=
  let s' := s.putLine l { s.lineRec l with inService := false }
  if rotate then { s' with settings := putTop s'.settings l.after } else s'

/-- A line in service is ended; any other answers NOT IN SERVICE (R142). -/
def endLine (l : Line) (rotate : Bool) (s : State) : State :=
  if (s.lineRec l).inService then answerPlain .ok (causing (fun x => weighLines (endService l rotate x)) s)
  else answerPlain .notInService s

/-- LINE END, specific (R142). -/
def lineEndSpecific (r : Record) (s : State) : State :=
  match recordLine r with
  | none => answerPlain .badRequest s
  | some l => endLine l (flag2 r) s

/-- LINE END, non-specific (R142). -/
def lineEndNonSpecific (r : Record) (s : State) : State :=
  match bestInService s with
  | none => answerPlain .notInService s
  | some l => endLine l (flag2 r) s

/-! ## LINE POLL (R144) -/

/-- LINE POLL selects at once, or waits for the delivery in progress (R144). -/
def linePoll (_r : Record) (s : State) : State :=
  weighLines
    (if s.irq.delivery.isSome then s.putIrq { s.irq with pollWaiting := true } else pollSelect s)

/-! ## The commands -/

/-- LINE_SET (R140). -/
def execLineSet (s : State) : Host.Outcome State Fault Refusal := .next (whenTaken (ofKind .lineSet) lineSet s)

/-- LINE_MASK_SET (R141). -/
def execLineMaskSet (s : State) : Host.Outcome State Fault Refusal :=
  .next (whenTaken (fun r => r.kind = .lineMask && flag1 r) (lineMask true) s)

/-- LINE_MASK_CLEAR (R141). -/
def execLineMaskClear (s : State) : Host.Outcome State Fault Refusal :=
  .next (whenTaken (fun r => r.kind = .lineMask && !flag1 r) (lineMask false) s)

/-- LINE_END_SPECIFIC (R142). -/
def execLineEndSpecific (s : State) : Host.Outcome State Fault Refusal :=
  .next (whenTaken (fun r => r.kind = .lineEnd && flag1 r) lineEndSpecific s)

/-- LINE_END_NON_SPECIFIC (R142). -/
def execLineEndNonSpecific (s : State) : Host.Outcome State Fault Refusal :=
  .next (whenTaken (fun r => r.kind = .lineEnd && !flag1 r) lineEndNonSpecific s)

/-- LINE_POLL (R144). -/
def execLinePoll (s : State) : Host.Outcome State Fault Refusal := .next (whenTaken (ofKind .linePoll) linePoll s)

end Sys2Proof.Machine
end

