-- ==== Sys2Proof/Machine/SlotRequests.lean ====
section
/-! DEFINITION. The requests that move data across the slot bus or order it: PORT and MEMORY (01, 02), streams (09) and FENCE (03). -/

namespace Sys2Proof.Machine

/-! ## PORT READ, PORT WRITE, MEMORY READ, MEMORY WRITE (R6, R20, R25 to R29) -/

/-- The transfer of a FORWARD request, set up by its window (R5, R29). -/
def requestXfer (space : Space) (isRead : Bool) (e : Entry) (r : Record) : Xfer :=
  { space := space, isRead := isRead, words := winWords e, waits := winWaits e, report := winReport e,
    forStream := false, addr := r.addr.toNat, left := r.sub.toNat, moved := [],
    out := if isRead then [] else (wordBytes r.value).take r.sub.toNat,
    lastLen := 0, lastFaulted := false, firstFault := none, stopped := false, aborted := false }

/-- The data bytes of a FILL answer (R28). -/
def fillData (isRead : Bool) (e : Entry) (width : Nat) : List Byte :=
  if isRead then pad8 (List.replicate width (winFill e)) else zeros8

/-- A request whose bytes all lie in its deciding entry is refused, filled or forwarded (R27, R28, R29). -/
def actOnWindow (space : Space) (isRead : Bool) (e : Entry) (r : Record) (s : State) : State :=
  if winAction e = actionRefuse then answerPlain .refusedByWindow s
  else if winAction e = actionFill then endRequest .ok r.sub.toNat (fillData isRead e r.sub.toNat) s
  else askBus (requestXfer space isRead e r) (setPhase .waiting s)

/-- A PORT or MEMORY request: operands, then held, then the window (R6, R20, R25, R26). -/
def slotRequest (space : Space) (isRead : Bool) (r : Record) (s : State) : State :=
  if !slotOperandsGood space r then answerPlain .badRequest s
  else if s.slot.held then answerPlain .held s
  else
    match decideWindow s.windows space r.addr.toNat r.sub.toNat with
    | .error st => answerPlain st s
    | .ok e => actOnWindow space isRead e r s

/-! ## STREAM IN and STREAM OUT (R150) -/

/-- The first segment a stream names (R174). -/
def streamFirst (r : Record) : Nat := field r.mask 0 8

/-- The width in bytes of a stream's step (R150). -/
def streamWidth (r : Record) : Nat := r.sub.toNat + 1

/-- The operand check of a stream (R150). -/
def streamOperandsGood (r : Record) : Bool :=
  (r.sub = 0 || r.sub = 1) && r.addr.toNat < 2 ^ 16 && (1 ≤ r.value.toNat && r.value.toNat ≤ 16777216) &&
    (streamFirst r < 64 || streamFirst r = segEnd)

/-- The stream record a stream starts with (R151, R152). -/
def newStream (isIn : Bool) (e : Entry) (r : Record) : StreamRec :=
  { isIn := isIn, port := r.addr.toNat, wordWide := r.sub = 1, words := winWords e, waits := winWaits e,
    report := winReport e, total := r.value.toNat, seg := streamFirst r, off := 0, use := 0, placed := 0,
    walkEnd := none, moved := 0, chunks := [], step := [], piece := none, firstFault := none,
    lastSeg := streamFirst r, used := 0, endingNext := none }

/-- A stream that has passed its checks is taken: the places of its first step are found, or its first read is formed (R150, R152). -/
def startStream (isIn : Bool) (e : Entry) (r : Record) (s : State) : State :=
  let s' := (setPhase .waiting s).putActive (some (prepareStep s (newStream isIn e r)))
  if isIn then s' else formStreamRead s'

/-- The check of the first segment (R150); the data bytes are those R156 gives an ended stream, with no byte moved (log entry 18). -/
def checkSegment (isIn : Bool) (e : Entry) (r : Record) (s : State) : State :=
  let n := streamFirst r
  if n = segEnd then endRequest .short 0 (streamData n segEnd none 0) s
  else if !(s.segment n).valid then endRequest .badSegment 0 (streamData n n none 0) s
  else startStream isIn e r s

/-- STREAM IN and STREAM OUT: operands, held, window, first segment (R150). A stream answered HELD, NO WINDOW, SPAN or REFUSED has 00h in
all its data bytes (log entry 46). -/
def takeStream (isIn : Bool) (r : Record) (s : State) : State :=
  if !streamOperandsGood r then answerPlain .badRequest s
  else if s.slot.held then answerPlain .held s
  else
    match decideWindow s.windows .port r.addr.toNat (streamWidth r) with
    | .error st => answerPlain st s
    | .ok e =>
      if winAction e = actionRefuse || winAction e = actionFill then answerPlain .refusedByWindow s
      else checkSegment isIn e r s

/-! ## FENCE (R51, R52) -/

/-- A FENCE whose drain is complete ends OK with the bytes it covers (R52). -/
def fenceCheck (s : State) : State :=
  match workOf s with
  | .fence covered w => if w.complete then endRequest .ok covered zeros8 s else s
  | .nothing => s
  | .maskSet _ => s
  | .maskClear _ _ => s

/-- A FENCE names the master buffer by its flag or by a MASTER-mode channel (R51). -/
def fenceMaster (r : Record) (s : State) : Bool := flag1 r || drainsMaster (chanMarks r.addr 0) s

/-- The bytes a FENCE covers (R52). -/
def fenceCovered (r : Record) (s : State) : Nat :=
  (Chan.all.map (drainCover (chanMarks r.addr 0) s).get).sum + (if fenceMaster r s then bufferBytes s else 0)

/-- FENCE: its drain is fixed, made, and waited for (R51, R52). -/
def fence (r : Record) (s : State) : State :=
  if !chanMarksGood r.addr then answerPlain .badRequest s
  else
    let d := chanMarks r.addr 0
    let m := fenceMaster r s
    let w := drainWaits d m s
    let n := fenceCovered r s
    fenceCheck (setWork (.fence n w) (makeDrain d m s))

/-! ## The commands -/

/-- PORT_READ (R29). -/
def execPortRead (s : State) : Host.Outcome State Fault Refusal :=
  .next (whenTaken (ofKind .portRead) (slotRequest .port true) s)

/-- PORT_WRITE (R29). -/
def execPortWrite (s : State) : Host.Outcome State Fault Refusal :=
  .next (whenTaken (ofKind .portWrite) (slotRequest .port false) s)

/-- MEMORY_READ (R29). -/
def execMemoryRead (s : State) : Host.Outcome State Fault Refusal :=
  .next (whenTaken (ofKind .memoryRead) (slotRequest .memory true) s)

/-- MEMORY_WRITE (R29). -/
def execMemoryWrite (s : State) : Host.Outcome State Fault Refusal :=
  .next (whenTaken (ofKind .memoryWrite) (slotRequest .memory false) s)

/-- STREAM_IN (R150). -/
def execStreamIn (s : State) : Host.Outcome State Fault Refusal :=
  .next (whenTaken (ofKind .streamIn) (takeStream true) s)

/-- STREAM_OUT (R150). -/
def execStreamOut (s : State) : Host.Outcome State Fault Refusal :=
  .next (whenTaken (ofKind .streamOut) (takeStream false) s)

/-- FENCE (R51). -/
def execFence (s : State) : Host.Outcome State Fault Refusal := .next (whenTaken (ofKind .fence) fence s)

end Sys2Proof.Machine
end

