-- ==== Sys2Proof/Machine/Link.lean ====
section
/-! DEFINITION. The host side of the data paths (06, 07, 09): the issue of host writes, prefetch reads, line fills, stream reads, and
the step that asks for the bus. -/

namespace Sys2Proof.Machine

/-! ## HOST WRITE ISSUE (R103, R107) -/

/-- Host memory holds the bytes of an issued write; an MSI reaches the host (R103, R162). -/
def hostTakes (src : WriteSource) (addr : Nat) (bytes : List Byte) (s : State) : State :=
  match src with
  | .msi => { s with host := { s.host with msis := s.host.msis + 1 } }
  | .run _ => { s with host := { s.host with mem := writeBytes s.host.mem addr bytes } }
  | .master _ => { s with host := { s.host with mem := writeBytes s.host.mem addr bytes } }
  | .piece => { s with host := { s.host with mem := writeBytes s.host.mem addr bytes } }
  | .record => { s with host := { s.host with mem := writeBytes s.host.mem addr bytes } }

/-- A run is issued: its bytes leave the staging buffer, demands and waits see them, a stopping may end, and room may make the
channel READY (R77, R107, R108). -/
def runIssued (c : Chan) (k : Nat) (s : State) : State :=
  let s1 := s.putStage c { s.stage c with marks := tallyMarks k (s.stage c).marks }
  placeChan true c (endStopping c (tallyWaits (fun w => w.tallyChan c k) s1))

/-- A master write is issued: its entries leave the buffer, a held write takes the room, and the next write is decided (R121, R122,
R127). The held write is posted first, so the next write may take it up (log entry 42). -/
def masterIssued (n : Nat) (s : State) : State :=
  let s1 := s.putMaster { s.master with
    buffer := s.master.buffer.drop n, drains := tallyMarks n s.master.drains }
  masterDecide (postHeld (tallyWaits (fun w => w.tallyMaster n) s1))

/-- The buffer that held an issued write is told (R107, R122, R155). -/
def sourceIssued (src : WriteSource) (k : Nat) (s : State) : State :=
  match src with
  | .run c => runIssued c k s
  | .master n => masterIssued n s
  | .piece => s
  | .record => s
  | .msi => s

/-- What waited on an issued write: the buffer that held it, a FENCE, a line's drain (R52, R107, R122, R137). -/
def afterIssue (src : WriteSource) (k : Nat) (s : State) : State := weighLines (fenceCheck (sourceIssued src k s))

/-- The head of the order is issued, and what waited on it follows: a buffer, a FENCE, a line's drain, a READY channel (R52, R57, R103,
R137). What it decides takes its places channel by channel, then the master port's (R103). -/
def issueWrite (s : State) : State :=
  match sendReads s.order with
  | .write src addr bytes :: rest =>
    kickBus (inChannelOrder (afterIssue src bytes.length) (hostTakes src addr bytes (s.putOrder (sendReads rest))))
  | .read _ :: _ => s
  | [] => s

/-! ## Prefetch reads (R112 to R115) -/

/-- The room under the prefetch limit (R112). -/
def prefetchRoom (c : Chan) (s : State) : Nat := (s.chan c).limit - (stagedCount c s + outstandingCount c s)

/-- The read is put in the channel's list and the cursor steps over it (R112, R115). -/
def addRead (c : Chan) (k : Chunk) (s : State) : State :=
  let st := s.stage c
  s.putStage c { st with
    chunks := st.chunks ++ [k]
    cursor := advanceCursor (s.chan c) st.cursor (k.len / c.unit) }

/-- The lowest host address of a read of `n` bytes whose first unit lies at `h` (R112). -/
def readHost (c : Chan) (decrement : Bool) (h n : Nat) : Nat := if decrement then h + c.unit - n else h

/-- A host read is formed and takes its place in the order (R103, R112). -/
def formPrefetch (c : Chan) (l h n : Nat) (s : State) : State :=
  let st := s.stage c
  let k : Chunk :=
    { id := st.readId, addr := l, host := readHost c (s.chan c).decrement h n, len := n, data := none,
      beyond := st.cursor.passed ≠ .no }
  formRead (.prefetch c st.readId)
    (addRead c k (s.putStage c { st with readId := st.readId + 1 }))

/-- On MISS or DENIED no host read is made: FFh is staged at once, and the fault is told (R112). -/
def fillPrefetch (c : Chan) (l n : Nat) (f : ChanFault) (s : State) : State :=
  let st := s.stage c
  let k : Chunk :=
    { id := st.readId, addr := l, host := 0, len := n,
      data := some (stagedBytes c (s.chan c).decrement l (allOnes n)), beyond := st.cursor.passed ≠ .no }
  kickBus (placeChan true c (unitFault f l c (addRead c k s)))

/-- The read the prefetcher would form next, if the cursor is READING and room allows: its address, lookup and length (R111, R112). -/
def nextPrefetch (c : Chan) (s : State) : Option (Nat × Lookup × Nat) :=
  let ch := s.chan c
  let cur := (s.stage c).cursor
  let l := legacyAddr c cur.page cur.addr
  let found := lookupMap s.map l .read
  let n := prefetchLength c ch cur s.map found
  if prefetches ch && cur.state = .reading && n ≤ prefetchRoom c s then some (l, found, n) else none

/-- The prefetcher forms the channel's next read, when it can (R112). -/
def prefetchForm (c : Chan) (s : State) : State :=
  match nextPrefetch c s with
  | none => s
  | some (l, .found _ h, n) => formPrefetch c l h n s
  | some (l, .miss, n) => fillPrefetch c l n .miss s
  | some (l, .denied, n) => fillPrefetch c l n .denied s

/-- The outstanding read of a number, if it has been sent and is not forgotten (R103, R117). -/
def outstandingRead (c : Chan) (id : Nat) (s : State) : Option Chunk :=
  if readSent (.prefetch c id) s then (s.stage c).chunks.find? (fun k => k.id = id && k.data.isNone) else none

/-- The bytes of a read are placed (R113). -/
def placeRead (c : Chan) (id : Nat) (bs : List Byte) (s : State) : State :=
  let st := s.stage c
  s.putStage c { st with chunks := st.chunks.map (fun k =>
    if k.id = id && k.data.isNone then { k with data := some (stagedBytes c (s.chan c).decrement k.addr bs) } else k) }

/-- A prefetch read completes: with its bytes, or with FFh and a HOST ERROR (R113, R114). -/
def prefetchComplete (c : Chan) (id : Nat) (r : ReadResult) (s : State) : State :=
  match outstandingRead c id s, r with
  | some k, .data bs =>
    if bs.length = k.len then kickBus (placeChan true c (placeRead c id bs s)) else s
  | some k, .error =>
    kickBus (placeChan true c (unitFault .hostError k.addr c (placeRead c id (allOnes k.len) s)))
  | none, .data _ => s
  | none, .error => s

/-! ## Line fills (R123, R124) -/

/-- The stretched read takes its answer from the fill that has just completed, if it waited for it (R124). -/
def answerHeld (f : Fill) (s : State) : State :=
  match s.master.stretched with
  | none => s
  | some x =>
    match x.kind with
    | .write _ => s
    | .read len toForm =>
      if !toForm && lineBase x.addr = f.addr then releaseCycle (lineHit x.addr len s) s else s

/-- The fill completes with its 32 bytes (R124). -/
def fillData32 (f : Fill) (bs : List Byte) (s : State) : State :=
  answerHeld f (s.putMaster { s.master with
    fill := none, readLine := some { addr := f.addr, entry := f.entry, host := f.host, bytes := bs } })

/-- The fill completes with an error: a read that waits is given FFh and a HOST ERROR becomes owed (R124). -/
def fillError (f : Fill) (s : State) : State :=
  let s' := s.putMaster { s.master with fill := none }
  match s.master.stretched with
  | none => s'
  | some x =>
    match x.kind with
    | .write _ => s'
    | .read len toForm =>
      if !toForm && lineBase x.addr = f.addr then
        masterFault .hostError x.addr (releaseCycle (some (allOnes len)) s')
      else s'

/-- The map as it stands still gives the held cycle the lookup made when it was presented (R118, R123). -/
def mapStands (x : Stretched) (s : State) : Bool := lookupMap s.map x.addr .read = .found x.entry x.host

/-- A fill marked to be ignored does nothing when it completes; a read that waited to form its own fill forms it now, by the lookup made
when it was presented (R118, R123, R125). Where a map write has changed that lookup since, the fill is formed ignored, so that a valid line
agrees with the map as it stands (log entry 21). Where the read has been ended first, by the ready limit or the tenure's end, no fill is
formed for it (log entry 43). -/
def fillIgnored (s : State) : State :=
  let s' := s.putMaster { s.master with fill := none }
  match s.master.stretched with
  | none => s'
  | some x =>
    match x.kind with
    | .write _ => s'
    | .read len toForm =>
      if toForm then
        formFill x.addr x.entry x.host (!mapStands x s)
          (s'.putMaster { s'.master with stretched := some { x with kind := .read len false } })
      else s'

/-- LINE FILL COMPLETE (R124). -/
def fillComplete (r : ReadResult) (s : State) : State :=
  match s.master.fill with
  | none => s
  | some f =>
    if !readSent .fill s then s
    else if f.ignored then fillIgnored s
    else
      match r with
      | .error => fillError f s
      | .data bs => if bs.length = Config.lineBytes then fillData32 f bs s else s

/-! ## Streams (R153, R154, R156) -/

/-- The stream in flight has not ended (R151). -/
def streamLive (s : State) : Bool :=
  match s.queue.exec with
  | some e => e.phase = .waiting || e.phase = .active
  | none => false

/-- A port step asks for the bus once it can be made (R153). -/
def streamStep (s : State) : State :=
  match s.stream.active with
  | none => s
  | some r =>
    if streamAtRest s && s.xfer.isNone then
      match stepBytes r s with
      | some (n, out) => askBus (stepXfer r n out) s
      | none => s
    else s

/-- The engine forms the next read of a STREAM OUT (R154). -/
def streamForm (s : State) : State := if streamLive s then endIfWalked (formStreamRead s) else s

/-- The stream's outstanding read of a number, if it has been sent and is not forgotten (R103, R154). -/
def outstandingStream (id : Nat) (s : State) : Option StreamChunk :=
  match s.stream.active with
  | none => none
  | some r =>
    if streamLive s && readSent (.stream id) s then r.chunks.find? (fun k => k.id = id && k.data.isNone) else none

/-- A read's bytes enter the buffer (R154). -/
def streamArrives (id : Nat) (bs : List Byte) (r : StreamRec) : StreamRec :=
  { r with chunks := deliverStream id bs r.chunks }

/-- A stream read completes, with its bytes or failed (R154); a walk end with no byte before it ends the stream (R156). -/
def streamComplete (id : Nat) (res : ReadResult) (s : State) : State :=
  match outstandingStream id s, res with
  | some k, .data bs =>
    if bs.length = k.len then s.putActive (s.stream.active.map (streamArrives id bs)) else s
  | some k, .error => endIfWalked (s.putActive (s.stream.active.map (failStream k.pos)))
  | none, .data _ => s
  | none, .error => s

/-! ## The commands -/

/-- HOST_WRITE_ISSUE (R107). -/
def execHostWriteIssue (s : State) : Host.Outcome State Fault Refusal := .next (issueWrite s)

/-- PREFETCH_READ_FORM (R112). -/
def execPrefetchReadForm (c : Chan) (s : State) : Host.Outcome State Fault Refusal := .next (prefetchForm c s)

/-- PREFETCH_READ_COMPLETE (R113). -/
def execPrefetchReadComplete (c : Chan) (id : Nat) (r : ReadResult) (s : State) :
    Host.Outcome State Fault Refusal :=
  .next (prefetchComplete c id r s)

/-- LINE_FILL_COMPLETE (R124). -/
def execLineFillComplete (r : ReadResult) (s : State) : Host.Outcome State Fault Refusal :=
  .next (fillComplete r s)

/-- STREAM_STEP (R153). -/
def execStreamStep (s : State) : Host.Outcome State Fault Refusal := .next (streamStep s)

/-- STREAM_READ_FORM (R154). -/
def execStreamReadForm (s : State) : Host.Outcome State Fault Refusal := .next (streamForm s)

/-- STREAM_READ_COMPLETE (R154). -/
def execStreamReadComplete (id : Nat) (r : ReadResult) (s : State) : Host.Outcome State Fault Refusal :=
  .next (streamComplete id r s)

end Sys2Proof.Machine
end

