-- ==== Sys2Proof/Machine/TableRequests.lean ====
section
/-! DEFINITION. The management requests (11): TABLE WRITE, TABLE READ, TABLE CLEAR, the settings entry, and IDENTIFY. -/

namespace Sys2Proof.Machine

/-! ## Entry and word numbers (R168, R174) -/

def entryNumber (r : Record) : Nat := field r.addr 0 16
def wordNumber (r : Record) : Nat := field r.addr 16 8

/-- Table ids (R168). -/
def tableWindow : Nat := 0
def tableMap : Nat := 1
def tableSegment : Nat := 2
def tableSettings : Nat := 3

/-- Entries of a table, and none for an id that names no table (R168). -/
def tableSize (id : Nat) : Nat :=
  if id = tableWindow then 32 else if id = tableMap then 32 else if id = tableSegment then 64
  else if id = tableSettings then 1 else 0

/-- Table id, entry number and word number are good (R168). -/
def tableOperandsGood (r : Record) : Bool := entryNumber r < tableSize r.sub.toNat && wordNumber r ≤ 3

/-- The candidate of a TABLE WRITE (R168). -/
def candidate (old : Entry) (r : Record) : Entry := old.merge (wordNumber r) r.value r.mask

/-! ## TABLE WRITE to windows, map and segments (R23, R100, R149) -/

/-- TABLE WRITE to the window table (R23); an id that names no table is refused here too (R168, log entry 24). -/
def tableWriteWindow (r : Record) (s : State) : State :=
  if r.sub = 0 && tableOperandsGood r then
    let e := winKeep (candidate (s.windows.toList.getD (entryNumber r) Entry.zero) r)
    if winAccepted e then answerPlain .ok { s with windows := s.windows.setIfInBounds (entryNumber r) e }
    else answerPlain .badEntry s
  else answerPlain .badRequest s

/-- TABLE WRITE to the memory map; whatever its outcome, the master read line becomes invalid (R100, R125, R168). -/
def tableWriteMap (r : Record) (s : State) : State :=
  let s' := invalidateLine s
  if tableOperandsGood r then
    let e := mapKeep (candidate (s'.map.toList.getD (entryNumber r) Entry.zero) r)
    if mapAccepted e then answerPlain .ok { s' with map := s'.map.setIfInBounds (entryNumber r) e }
    else answerPlain .badEntry s'
  else answerPlain .badRequest s'

/-- TABLE WRITE to the segment table (R149). -/
def tableWriteSegment (r : Record) (s : State) : State :=
  if tableOperandsGood r then
    let e := segKeep (candidate (s.segment (entryNumber r)) r)
    if segAccepted e then answerPlain .ok { s with segments := s.segments.setIfInBounds (entryNumber r) e }
    else answerPlain .badEntry s
  else answerPlain .badRequest s

/-! ## The settings entry (R171) -/

/-- A changed refresh period restarts the timer from 0 (R64). -/
def applyPeriod (old : Entry) (s : State) : State :=
  if setRefreshPeriod s.settings = setRefreshPeriod old then s
  else { s with refresh := { s.refresh with timer := 0 } }

/-- A run whose age has already reached the limit is flushed (R109). -/
def applyAgeTo (c : Chan) (s : State) : State :=
  match (s.stage c).opened with
  | some r => if setAgeLimit s.settings ≠ 0 && setAgeLimit s.settings ≤ r.age then flushDemand c s else s
  | none => s

/-- A changed staging age limit applies to every open run at its present age (R109). -/
def applyAge (old : Entry) (s : State) : State :=
  if setAgeCode s.settings = setAgeCode old then s else forChans applyAgeTo s

/-- A changed master hold limit that the meter has already reached reports at once (R63). -/
def applyHold (old : Entry) (s : State) : State :=
  if setMasterHold s.settings = setMasterHold old then s
  else if holdArmed s && setMasterHold s.settings ≤ s.arb.meter then masterLong s else s

/-- A change of the channel priority mode to FIXED sets the order to 0 first (R82). -/
def applyPriority (old : Entry) (s : State) : State :=
  if setRotating old && !setRotating s.settings then { s with dma := { s.dma with order := Chan.all } } else s

/-- A change of the priority top or of the nesting mode weighs the lines afresh (R134). -/
def applyRing (old : Entry) (s : State) : State :=
  if setTop s.settings = setTop old ∧ setNested s.settings = setNested old then s else weighLines s

/-- The settings entry becomes `e`, and each field whose value changed takes effect in its block (R171). A changed slot clock is
applied now if the bus has no owner (R1); a tenure limit and a ready limit are read where they act (R11, R68). Runs that a changed age
limit flushes and those of a newly selected line's drain are decided in one event, channel by channel (R103). -/
def applySettings (e : Entry) (s : State) : State :=
  let old := s.settings
  causing
    (inChannelOrder
      (fun x => applyRing old (applyPriority old (applyHold old (applyAge old (applyPeriod old (applyClock x)))))))
    { s with settings := e }

/-- TABLE WRITE to the settings entry: clamped, and CLAMPED if a field was out of range (R171). -/
def tableWriteSettings (r : Record) (s : State) : State :=
  if tableOperandsGood r then
    let e := candidate s.settings r
    answerPlain (if settingsInRange e then .ok else .clamped) (applySettings (clampSettings e) s)
  else answerPlain .badRequest s

/-! ## TABLE READ and TABLE CLEAR (R169, R170) -/

/-- An entry of a table as it stands. -/
def tableEntry (s : State) (id n : Nat) : Entry :=
  if id = tableWindow then s.windows.toList.getD n Entry.zero
  else if id = tableMap then s.map.toList.getD n Entry.zero
  else if id = tableSegment then s.segment n
  else s.settings

/-- TABLE READ (R169). -/
def tableRead (r : Record) (s : State) : State :=
  if tableOperandsGood r then
    let e := tableEntry s r.sub.toNat (entryNumber r)
    endRequest .ok 8 (wordBytes (e.word (wordNumber r)) ++ wordBytes (e.word (wordNumber r + 1))) s
  else answerPlain .badRequest s

/-- The operand check of TABLE CLEAR; with the all flag the entry number is ignored (R170). -/
def clearOperandsGood (r : Record) : Bool :=
  r.sub.toNat ≤ tableSettings && (flag1 r || entryNumber r < tableSize r.sub.toNat)

/-- One entry of a table, or every entry, at its reset value (R170). -/
def clearEntries {n : Nat} (all : Bool) (i : Nat) (v : Vector Entry n) : Vector Entry n :=
  if all then Vector.replicate n Entry.zero else v.setIfInBounds i Entry.zero

/-- A good TABLE CLEAR (R170). -/
def clearTable (r : Record) (s : State) : State :=
  let id := r.sub.toNat
  if id = tableWindow then { s with windows := clearEntries (flag1 r) (entryNumber r) s.windows }
  else if id = tableMap then { s with map := clearEntries (flag1 r) (entryNumber r) s.map }
  else if id = tableSegment then { s with segments := clearEntries (flag1 r) (entryNumber r) s.segments }
  else applySettings Entry.settingsReset s

/-- TABLE CLEAR; one of the memory map invalidates the master read line, accepted or refused (R125, R170). -/
def tableClear (r : Record) (s : State) : State :=
  let s' := if r.sub.toNat = tableMap then invalidateLine s else s
  if clearOperandsGood r then answerPlain .ok (clearTable r s') else answerPlain .badRequest s'

/-! ## IDENTIFY (R172) -/

def partCode : Nat := 0x4B33

/-- The data bytes of IDENTIFY (R172). -/
def identifyData : List Byte := [0x01, 64, 32, 32, 64, 7, 11, 0]

/-- IDENTIFY (R172). -/
def identify (_r : Record) (s : State) : State := endRequest .ok partCode identifyData s

/-! ## The commands -/

/-- A TABLE WRITE that names one table. -/
def writesTable (id : Nat) (r : Record) : Bool := r.kind = .tableWrite && r.sub.toNat = id

/-- TABLE_WRITE_WINDOW (R23), which also answers a TABLE WRITE whose id names no table (log entry 24). -/
def execTableWriteWindow (s : State) : Host.Outcome State Fault Refusal :=
  .next (whenTaken (fun r => r.kind = .tableWrite && (r.sub.toNat = tableWindow || tableSettings < r.sub.toNat))
    tableWriteWindow s)

/-- TABLE_WRITE_MAP (R100). -/
def execTableWriteMap (s : State) : Host.Outcome State Fault Refusal :=
  .next (whenTaken (writesTable tableMap) tableWriteMap s)

/-- TABLE_WRITE_SEGMENT (R149). -/
def execTableWriteSegment (s : State) : Host.Outcome State Fault Refusal :=
  .next (whenTaken (writesTable tableSegment) tableWriteSegment s)

/-- TABLE_WRITE_SETTINGS (R171). -/
def execTableWriteSettings (s : State) : Host.Outcome State Fault Refusal :=
  .next (whenTaken (writesTable tableSettings) tableWriteSettings s)

/-- TABLE_READ (R169). -/
def execTableRead (s : State) : Host.Outcome State Fault Refusal :=
  .next (whenTaken (ofKind .tableRead) tableRead s)

/-- TABLE_CLEAR (R170). -/
def execTableClear (s : State) : Host.Outcome State Fault Refusal :=
  .next (whenTaken (ofKind .tableClear) tableClear s)

/-- IDENTIFY (R172). -/
def execIdentify (s : State) : Host.Outcome State Fault Refusal := .next (whenTaken (ofKind .identify) identify s)

end Sys2Proof.Machine
end

