-- ==== Sys2Proof/Machine/Resets.lean ====
section
/-! DEFINITION. The resets: the slot reset line (01), SLOT RESET and PART RESET and the ends of their timers (R16 to R18, R173), and
link reset (R19). -/

namespace Sys2Proof.Machine

/-! ## The slot reset line becomes ASSERTED (R16, R17) -/

/-- A DMA or master tenure that the line cuts off ends, and its end rotates the order (R82). -/
def rotateCutOff (s : State) : State :=
  match s.arb.owner with
  | .dma c => rotateOrder c s
  | .master =>
    match s.arb.masterChan with
    | some c => rotateOrder c s
    | none => s
  | .free => s
  | .hostPath => s
  | .refresh => s

/-- The arbiter empties the bus (R58). -/
def Arbiter.emptied (a : Arbiter) : Arbiter :=
  { a with owner := .free, hostTurn := false, masterChan := none, meter := 0, longReported := false,
           lastMaster := none }

/-- The line is ASSERTED, the cycle on the bus is cut off and the reset timer starts (R16, R17). -/
def SlotEngine.assert (e : SlotEngine) (durationMs settleMs : Nat) : SlotEngine :=
  { e with cycle := none, readyTimer := none, lastAddr := none, line := .asserted,
           pulse := some { durationMs := durationMs, settleMs := settleMs, elapsed := 0 } }

/-- The refresh generator pauses with nothing owed (R67). -/
def Refresh.paused (r : Refresh) : Refresh := { r with timer := 0, owed := 0, episode := false }

/-- Pending, in service and overrun are cleared (R147). -/
def LineRec.cleared (r : LineRec) : LineRec := { r with pending := false, inService := false, overrun := false }

/-- SLOT RESET on one channel: masked, and stopped by R77 (R97). -/
def resetChan (c : Chan) (s : State) : State :=
  let ch := s.chan c
  match ch.state with
  | .idle => s.putChan c ch.masked
  | .finished => s.putChan c ch.masked
  | .stopping d => enterStopping c d (s.putChan c ch.masked)
  | .waiting | .ready | .active | .stalled | .mastered => enterStopping c .idle (s.putChan c ch.masked)

/-- The board's own blocks when the line is ASSERTED, before the channels: the bus, the cycle, refresh, a held master cycle (cut
off without a fault), the line records and the candidate (R16, R58, R67, R128, R147). -/
def assertLine (durationMs settleMs : Nat) (s : State) : State :=
  let s1 := rotateCutOff s
  let s2 := (s1.putArb s1.arb.emptied).putSlot (s1.slot.assert durationMs settleMs)
  let s3 := { s2 with refresh := s2.refresh.paused }
  let s4 := s3.putMaster { s3.master with stretched := none }
  s4.putIrq { s4.irq with lines := PerLine.ofFn (fun l => (s4.lineRec l).cleared), delivery := none }

/-- SLOT RESET taken with its two times (R16). A waiting clock change applies at once (R17). -/
def assertSlotReset (durationMs settleMs : Nat) (s : State) : State :=
  applyClock (forChans resetChan (invalidateLine (assertLine durationMs settleMs s)))

/-- The duration and settle time of SLOT RESET and PART RESET (R174). -/
def resetDuration (r : Record) : Nat := field r.addr 0 8
def resetSettle (r : Record) : Nat := field r.addr 8 8

/-- The sequencer executes SLOT RESET (R16). -/
def slotReset (r : Record) (s : State) : State :=
  if resetDuration r = 0 then answerPlain .badRequest s
  else assertSlotReset (resetDuration r) (resetSettle r) s

/-! ## The ends of the two timers (R18) -/

/-- The pending field of a LEVEL line follows its line again (R133). -/
def followLevel (s : State) (l : Line) (r : LineRec) : LineRec :=
  if r.level then { r with pending := s.pins.irq.get l } else r

/-- Every LEVEL line's pending follows its line (R132, R133). -/
def resumeCapture (s : State) : State :=
  s.putIrq { s.irq with lines := PerLine.ofFn (fun l => followLevel s l (s.lineRec l)) }

/-- The line becomes RELEASED, the held flag is cleared and the request completes OK (R18, R173). -/
def completeReset (s : State) : State :=
  kickBus (answerPlain .ok (s.putSlot { s.slot with line := .released, held := false, pulse := none }))

/-- The reset timer reaches the duration: SETTLING, or RELEASED with a settle time of 0. Refresh starts from 0, channels are placed
again, and capture resumes (R18, R67, R71, R133). -/
def releaseLine (s : State) : State :=
  match s.slot.pulse with
  | none => s
  | some p =>
    if s.slot.line = .asserted then
      let s1 := s.putSlot { s.slot with line := .settling, pulse := some { p with elapsed := 0 } }
      let s2 := { s1 with refresh := { s1.refresh with timer := 0 } }
      let s3 := kickBus (causing (fun x => weighLines (forChans (placeChan true) (resumeCapture x))) s2)
      if p.settleMs = 0 then completeReset s3 else s3
    else s

/-- The settle timer reaches the settle time (R18). -/
def settleEnd (s : State) : State :=
  match s.slot.pulse with
  | none => s
  | some _ => if s.slot.line = .settling then completeReset s else s

/-! ## PART RESET (R173) -/

/-- The channel owns the bus, by a unit of its own or through its master card. -/
def ownsBus (c : Chan) (s : State) : Bool :=
  s.arb.owner = .dma c || (s.arb.owner = .master && s.arb.masterChan = some c)

/-- A channel's record after PART RESET: one that owns the bus is STOPPING until it gives the bus back (R96). -/
def partResetChan (s : State) (c : Chan) : Channel :=
  if ownsBus c s then { Channel.reset with state := .stopping .idle } else Channel.reset

/-- The DMA engine after PART RESET (R82, R96). -/
def partResetDma (s : State) : Dma :=
  { chans := PerChan.ofFn (partResetChan s)
    order := Chan.all }

/-- An empty staging buffer and a cursor at rest; reads keep being numbered on (R110, R117, log entry 11). -/
def Staging.emptied (st : Staging) : Staging := { Staging.reset with readId := st.readId }

/-- A place in the order that PART RESET leaves: every one but a staged run's (R103, R110). -/
def OrderItem.notRun : OrderItem → Bool
  | .write (.run _) _ _ => false
  | .write (.master _) _ _ => true
  | .write .piece _ _ => true
  | .write .record _ _ => true
  | .write .msi _ _ => true
  | .read _ => true

/-- What the port last drove, when PART RESET releases a held read with FFh (R128). -/
def releasedAnswer (m : MasterPort) : Option (List Byte) :=
  match m.stretched with
  | some x =>
    match x.kind with
    | .read len _ => some (allOnes len)
    | .write _ => m.answered
  | none => m.answered

/-- The master access port after PART RESET (R119, R128). -/
def MasterPort.partReset (m : MasterPort) : MasterPort :=
  { buffer := m.buffer.takeWhile MasterEntry.decided
    readLine := none
    fill := m.fill.map (fun f => { f with ignored := true })
    stretched := none
    owedFault := none
    drains := []
    answered := releasedAnswer m }

/-- The cycle in progress, a unit cycle's result being thrown away (R96). -/
def discardUnit (s : State) : Option Cycle :=
  if s.arb.owner.isDma then s.slot.cycle.map (fun cyc => { cyc with discard := true }) else s.slot.cycle

/-- Everything that PART RESET returns to its reset value in one event; all else is kept (R173). -/
def clearPart (s : State) : State :=
  { s with
    slot := { s.slot with cycle := discardUnit s }
    windows := Vector.replicate 32 Entry.zero
    map := Vector.replicate 32 Entry.zero
    segments := Vector.replicate 64 Entry.zero
    dma := partResetDma s
    staging := PerChan.ofFn (fun c => (s.stage c).emptied)
    order := sendReads (s.order.filter OrderItem.notRun)
    master := s.master.partReset
    irq := { lines := PerLine.const LineRec.reset, delivery := none, poll := none, pollWaiting := false } }

/-- The sequencer executes PART RESET; with its pulse flag the SLOT RESET is taken in the same event (R173). A master read held at that
moment is given FFh first, and the line then finds no held cycle to cut off (R128, log entry 44). -/
def partReset (r : Record) (s : State) : State :=
  if flag1 r then
    if resetDuration r = 0 then answerPlain .badRequest s
    else assertSlotReset (resetDuration r) (resetSettle r) (clearPart s)
  else answerPlain .ok (clearPart s)

/-! ## Link reset (R19, R55, "Link reset values by block") -/

/-- Every block at its link reset value. What stands outside the board is as it was, the queue of commands and the numbering of
reads among it (log entries 6, 11). -/
def linkReset (s : State) : State :=
  { State.reset with
    pending := s.pending
    staging := PerChan.ofFn (fun c => (s.stage c).emptied)
    stream := { active := none, readId := s.stream.readId }
    pins := s.pins
    host := s.host }

/-! ## The commands -/

/-- LINK_RESET (R19). -/
def execLinkReset (s : State) : Host.Outcome State Fault Refusal := .next (linkReset s)

/-- SLOT_RESET (R16). -/
def execSlotReset (s : State) : Host.Outcome State Fault Refusal :=
  .next (whenTaken (ofKind .slotReset) slotReset s)

/-- PART_RESET (R173). -/
def execPartReset (s : State) : Host.Outcome State Fault Refusal :=
  .next (whenTaken (ofKind .partReset) partReset s)

/-- RESET_DURATION_END (R18). -/
def execResetDurationEnd (s : State) : Host.Outcome State Fault Refusal := .next (releaseLine s)

/-- SETTLE_END (R18). -/
def execSettleEnd (s : State) : Host.Outcome State Fault Refusal := .next (settleEnd s)

end Sys2Proof.Machine
end

