-- ==== Sys2Proof/Machine/Timers.lean ====
section
/-! DEFINITION. The commands that end cycles and timers (01, 04, 06), and one microsecond of the board's own timers, which is what a
step on an empty command queue does (log entry 3). -/

namespace Sys2Proof.Machine

/-! ## The commands -/

/-- SLOT_CLOCK_APPLY (R1). -/
def execSlotClockApply (s : State) : Host.Outcome State Fault Refusal := .next (applyClock s)

/-- The cycle is one of the host path's. -/
def hostCycle (cyc : Cycle) : Bool := cyc.owner = .hostPath

/-- The cycle is a unit of a channel. -/
def unitCycleOf (cyc : Cycle) : Bool := cyc.owner.isDma

/-- The cycle is a refresh cycle. -/
def refreshCycleOf (cyc : Cycle) : Bool := cyc.owner = .refresh

/-- HOST_CYCLE_END (R7). -/
def execHostCycleEnd (sense ready : Bool) (data : BusWord) (s : State) : Host.Outcome State Fault Refusal :=
  .next (lastClock hostCycle sense ready data s)

/-- UNIT_CYCLE_END (R83). -/
def execUnitCycleEnd (ready : Bool) (data : BusWord) (s : State) : Host.Outcome State Fault Refusal :=
  .next (lastClock unitCycleOf false ready data s)

/-- REFRESH_CYCLE_END (R66). -/
def execRefreshCycleEnd (ready : Bool) (s : State) : Host.Outcome State Fault Refusal :=
  .next (lastClock refreshCycleOf false ready 0 s)

/-- READY_RELEASE (R11). -/
def execReadyRelease (data : BusWord) (s : State) : Host.Outcome State Fault Refusal := .next (releaseReady data s)

/-- READY_LIMIT_EXPIRY (R11). -/
def execReadyLimitExpiry (s : State) : Host.Outcome State Fault Refusal := .next (readyExpiry s)

/-- CARD_CHECK_EDGE (R14). -/
def execCardCheckEdge (between : Bool) (s : State) : Host.Outcome State Fault Refusal := .next (checkEdge between s)

/-- REFRESH_TIMER_EXPIRY (R65). -/
def execRefreshTimerExpiry (s : State) : Host.Outcome State Fault Refusal := .next (refreshExpiry s)

/-- MASTER_HOLD_LIMIT (R63). -/
def execMasterHoldLimit (s : State) : Host.Outcome State Fault Refusal := .next (masterHoldExpiry s)

/-- STAGING_AGE_LIMIT (R109). -/
def execStagingAgeLimit (c : Chan) (s : State) : Host.Outcome State Fault Refusal := .next (ageExpiry c s)

/-! ## One microsecond (log entry 3)

Every timer that runs counts first, so that what an expiry of this microsecond starts (a run, a master tenure) is counted from there. -/

def ReadyTimer.advance (t : ReadyTimer) : ReadyTimer := { t with elapsed := t.elapsed + 1 }

def ReadyTimer.expired (t : ReadyTimer) : Bool := t.limit ≤ t.elapsed

/-- The ready timer of a held cycle counts (R118). -/
def Stretched.advance (x : Stretched) : Stretched := { x with timer := x.timer.advance }

/-- The reset timer or the settle timer counts (R16, R18). -/
def Pulse.advance (p : Pulse) : Pulse := { p with elapsed := p.elapsed + 1 }

/-- The age of the open run counts (R109). -/
def Staging.aged (st : Staging) : Staging := { st with opened := st.opened.map (fun r => { r with age := r.age + 1 }) }

/-- Every timer of the board that runs counts one microsecond: the ready timers of a cycle and of a held cycle (R11, R118), the reset or
settle timer (R16, R18), the master hold meter while the owner is MASTER (R63), the refresh timer (R64), the ages of the open runs (R109). -/
def countTimers (s : State) : State :=
  { s with
    slot := { s.slot with
      readyTimer := s.slot.readyTimer.map ReadyTimer.advance, pulse := s.slot.pulse.map Pulse.advance }
    arb := { s.arb with meter := if s.arb.owner = .master then s.arb.meter + 1 else s.arb.meter }
    refresh := { s.refresh with timer := if refreshRuns s then s.refresh.timer + 1 else s.refresh.timer }
    staging := PerChan.ofFn (fun c => (s.stage c).aged)
    master := { s.master with stretched := s.master.stretched.map Stretched.advance } }

/-- The ready timer of an EXTENDED cycle of the board reaches its limit (R11). -/
def cycleDue (s : State) : State := if s.slot.readyTimer.any ReadyTimer.expired then readyExpiry s else s

/-- The ready timer of a held cycle of a master card reaches its limit (R118). -/
def heldDue (s : State) : State := if s.master.stretched.any (fun x => x.timer.expired) then expireHeld s else s

/-- The master hold meter reaches its limit (R63). -/
def meterDue (s : State) : State :=
  if s.arb.owner = .master && setMasterHold s.settings ≤ s.arb.meter then masterHoldExpiry s else s

/-- The refresh timer reaches its period (R64, R65). -/
def refreshDue (s : State) : State := if setRefreshPeriod s.settings ≤ s.refresh.timer then refreshExpiry s else s

/-- The age of a channel's open run reaches the limit (R109). -/
def ageDue (c : Chan) (s : State) : State :=
  if (s.stage c).opened.any (fun r => setAgeLimit s.settings ≤ r.age) then ageExpiry c s else s

/-- Microseconds in a number of milliseconds. -/
def microseconds (ms : Nat) : Nat := ms * 1000

/-- The reset timer or the settle timer reaches its time (R16, R18). -/
def pulseDue (s : State) : State :=
  match s.slot.pulse with
  | none => s
  | some p =>
    match s.slot.line with
    | .asserted => if microseconds p.durationMs ≤ p.elapsed then releaseLine s else s
    | .settling => if microseconds p.settleMs ≤ p.elapsed then settleEnd s else s
    | .released => s

/-- The moment of the last command is over (log entry 40). -/
def settle (s : State) : State := s.putQueue s.queue.settled

/-- Every timer of the board counts one microsecond, and those that reach their limits expire. -/
def tick (s : State) : State :=
  pulseDue (forChans ageDue (refreshDue (meterDue (heldDue (cycleDue (countTimers (settle s)))))))

end Sys2Proof.Machine
end

