-- ==== Sys2Proof/Machine/Dispatch.lean ====
section
/-! DEFINITION. The meaning of every command: one arm for each row of spec/opcode_table.json, in the table's order. -/

namespace Sys2Proof.Machine

def exec (i : Instr) (s : State) : Host.Outcome State Fault Refusal :=
  match i with
  | .linkReset => Sys2Proof.Machine.execLinkReset s
  | .apertureWriteIgnored offset => Sys2Proof.Machine.execApertureWriteIgnored offset s
  | .malformed offset enables => Sys2Proof.Machine.execMalformed offset enables s
  | .unknown kind => Sys2Proof.Machine.execUnknown kind s
  | .queuedKindAppend r => Sys2Proof.Machine.execQueuedKindAppend r s
  | .ringSet tag base size => Sys2Proof.Machine.execRingSet tag base size s
  | .ringCredit tag respond arm clearFault number => Sys2Proof.Machine.execRingCredit tag respond arm clearFault number s
  | .queueHalt tag respond => Sys2Proof.Machine.execQueueHalt tag respond s
  | .queueResume tag respond => Sys2Proof.Machine.execQueueResume tag respond s
  | .queueAbort tag => Sys2Proof.Machine.execQueueAbort tag s
  | .portRead => Sys2Proof.Machine.execPortRead s
  | .portWrite => Sys2Proof.Machine.execPortWrite s
  | .memoryRead => Sys2Proof.Machine.execMemoryRead s
  | .memoryWrite => Sys2Proof.Machine.execMemoryWrite s
  | .streamIn => Sys2Proof.Machine.execStreamIn s
  | .streamOut => Sys2Proof.Machine.execStreamOut s
  | .slotReset => Sys2Proof.Machine.execSlotReset s
  | .fence => Sys2Proof.Machine.execFence s
  | .channelProgram => Sys2Proof.Machine.execChannelProgram s
  | .channelNext => Sys2Proof.Machine.execChannelNext s
  | .channelMaskSet => Sys2Proof.Machine.execChannelMaskSet s
  | .channelMaskClear => Sys2Proof.Machine.execChannelMaskClear s
  | .channelRequestSet => Sys2Proof.Machine.execChannelRequestSet s
  | .channelRequestClear => Sys2Proof.Machine.execChannelRequestClear s
  | .channelStatus => Sys2Proof.Machine.execChannelStatus s
  | .lineSet => Sys2Proof.Machine.execLineSet s
  | .lineMaskSet => Sys2Proof.Machine.execLineMaskSet s
  | .lineMaskClear => Sys2Proof.Machine.execLineMaskClear s
  | .lineEndSpecific => Sys2Proof.Machine.execLineEndSpecific s
  | .lineEndNonSpecific => Sys2Proof.Machine.execLineEndNonSpecific s
  | .linePoll => Sys2Proof.Machine.execLinePoll s
  | .tableWriteWindow => Sys2Proof.Machine.execTableWriteWindow s
  | .tableWriteMap => Sys2Proof.Machine.execTableWriteMap s
  | .tableWriteSegment => Sys2Proof.Machine.execTableWriteSegment s
  | .tableWriteSettings => Sys2Proof.Machine.execTableWriteSettings s
  | .tableRead => Sys2Proof.Machine.execTableRead s
  | .tableClear => Sys2Proof.Machine.execTableClear s
  | .partReset => Sys2Proof.Machine.execPartReset s
  | .identify => Sys2Proof.Machine.execIdentify s
  | .slotClockApply => Sys2Proof.Machine.execSlotClockApply s
  | .hostCycleEnd sense ready data => Sys2Proof.Machine.execHostCycleEnd sense ready data s
  | .unitCycleEnd ready data => Sys2Proof.Machine.execUnitCycleEnd ready data s
  | .refreshCycleEnd ready => Sys2Proof.Machine.execRefreshCycleEnd ready s
  | .readyRelease data => Sys2Proof.Machine.execReadyRelease data s
  | .readyLimitExpiry => Sys2Proof.Machine.execReadyLimitExpiry s
  | .cardCheckEdge between => Sys2Proof.Machine.execCardCheckEdge between s
  | .resetDurationEnd => Sys2Proof.Machine.execResetDurationEnd s
  | .settleEnd => Sys2Proof.Machine.execSettleEnd s
  | .refreshTimerExpiry => Sys2Proof.Machine.execRefreshTimerExpiry s
  | .masterHoldLimit => Sys2Proof.Machine.execMasterHoldLimit s
  | .dmaRequestRise c => Sys2Proof.Machine.execDmaRequestRise c s
  | .dmaRequestFall c => Sys2Proof.Machine.execDmaRequestFall c s
  | .stagingAgeLimit c => Sys2Proof.Machine.execStagingAgeLimit c s
  | .hostWriteIssue => Sys2Proof.Machine.execHostWriteIssue s
  | .prefetchReadForm c => Sys2Proof.Machine.execPrefetchReadForm c s
  | .prefetchReadComplete c id r => Sys2Proof.Machine.execPrefetchReadComplete c id r s
  | .masterWriteCycle addr wide data => Sys2Proof.Machine.execMasterWriteCycle addr wide data s
  | .masterHeldWritePost => Sys2Proof.Machine.execMasterHeldWritePost s
  | .masterWriteDecide => Sys2Proof.Machine.execMasterWriteDecide s
  | .masterReadCycle addr wide => Sys2Proof.Machine.execMasterReadCycle addr wide s
  | .lineFillComplete r => Sys2Proof.Machine.execLineFillComplete r s
  | .interruptLineRise l => Sys2Proof.Machine.execInterruptLineRise l s
  | .interruptLineFall l => Sys2Proof.Machine.execInterruptLineFall l s
  | .streamStep => Sys2Proof.Machine.execStreamStep s
  | .streamReadForm => Sys2Proof.Machine.execStreamReadForm s
  | .streamReadComplete id r => Sys2Proof.Machine.execStreamReadComplete id r s
  | .returnRecordWrite => Sys2Proof.Machine.execReturnRecordWrite s

end Sys2Proof.Machine
end

