-- ==== Sys2Proof/Safety.lean ====
section
/-! DEFINITION. The terms claims are stated in: which blocks a step may touch, how a request ends, and the invariants of a run. -/

namespace Sys2Proof.Machine

/-! ## Frames -/

/-- The blocks of the state that something may change. -/
structure Touch where
  pending  : Bool := false
  slot     : Bool := false
  xfer     : Bool := false
  windows  : Bool := false
  queue    : Bool := false
  arb      : Bool := false
  refresh  : Bool := false
  dma      : Bool := false
  map      : Bool := false
  staging  : Bool := false
  order    : Bool := false
  master   : Bool := false
  irq      : Bool := false
  segments : Bool := false
  stream   : Bool := false
  ret      : Bool := false
  intake   : Bool := false
  settings : Bool := false
  pins     : Bool := false
  host     : Bool := false
deriving DecidableEq, Repr

/-- Every block that `m` does not name is in `t` as it was in `s`. -/
structure Within (m : Touch) (s t : State) : Prop where
  pending  : m.pending = false → t.pending = s.pending
  slot     : m.slot = false → t.slot = s.slot
  xfer     : m.xfer = false → t.xfer = s.xfer
  windows  : m.windows = false → t.windows = s.windows
  queue    : m.queue = false → t.queue = s.queue
  arb      : m.arb = false → t.arb = s.arb
  refresh  : m.refresh = false → t.refresh = s.refresh
  dma      : m.dma = false → t.dma = s.dma
  map      : m.map = false → t.map = s.map
  staging  : m.staging = false → t.staging = s.staging
  order    : m.order = false → t.order = s.order
  master   : m.master = false → t.master = s.master
  irq      : m.irq = false → t.irq = s.irq
  segments : m.segments = false → t.segments = s.segments
  stream   : m.stream = false → t.stream = s.stream
  ret      : m.ret = false → t.ret = s.ret
  intake   : m.intake = false → t.intake = s.intake
  settings : m.settings = false → t.settings = s.settings
  pins     : m.pins = false → t.pins = s.pins
  host     : m.host = false → t.host = s.host

/-! ## The request in flight -/

/-- The record the sequencer has taken and not yet executed. -/
def takenRecord (s : State) : Option Record :=
  match s.queue.exec with
  | some e => if e.phase = .taken then some e.request else none
  | none => none

/-- The sequencer in `t` after the request in flight of the queue `q` has retired, under a HALT-policy fault if `hf`: the record
has left, the waiting marks have acted, every control answer is ready, and in RUNNING the next head is taken (R35, R37, R43, R45, R46,
R50); the stream, if there was one, is over (R151). `last` is what a QUEUE ABORT of the same moment still finds (R48, log entry 40). -/
structure Retired (hf : Bool) (last : Option Record) (q : Queue) (streams : StreamEngine) (t : State) : Prop where
  records : t.queue.records = q.records.tail
  state : t.queue.state =
    if q.waitAbort then .halted else if hf then .faulted else if q.waitHalt then .halted else q.state
  exec : t.queue.exec = if t.queue.state = .running then q.records.tail.head?.map Exec.take else none
  controls : t.queue.controls = q.controls.map (fun c => { c with ready := true })
  waitHalt : t.queue.waitHalt = false
  waitAbort : t.queue.waitAbort = false
  place : t.queue.place = if q.place = .control ∨ q.controls ≠ [] then .control else .empty
  finished : t.queue.finished = last
  number : t.queue.number = q.number + 1
  tied : t.queue.tied = q.tied
  stream : t.stream = { streams with active := none }

/-- How the sequencer stands in `t` once the request `r` in flight in `s` has reached its outcome: its response waits in ENDED with
that outcome, or it writes none and has retired (R36, R39, R40). No block but the queue and the stream engine is touched. -/
structure EndsWith (hf : Bool) (r : Record) (st : Status) (count : Nat) (data : List Byte) (s t : State) : Prop where
  frame : Within { queue := true, stream := true } s t
  responds : respondsWith r st = true →
    t.stream = s.stream ∧
    t.queue = { s.queue with
      exec := some { request := r, phase := .ended, answer := ⟨st, count, data⟩, responds := true,
                     haltFault := hf, work := .nothing }
      place := if s.queue.place = .empty then .response else s.queue.place }
  retires : respondsWith r st = false → Retired hf (streamOf r) s.queue s.stream t

/-- The outcome of a request that met no fault under a HALT policy. -/
def Ends (r : Record) (st : Status) (count : Nat) (data : List Byte) (s t : State) : Prop :=
  EndsWith false r st count data s t

/-- A request refused or answered plainly: count 0 and data bytes 00h (R38). -/
def EndsPlain (r : Record) (st : Status) (s t : State) : Prop := Ends r st 0 zeros8 s t

/-! ## Invariants -/

/-- The priority order is the ring of channels read from one of them (R82). -/
def OrderGood (s : State) : Prop := ∃ c, s.dma.order = rotateAfter c

/-- The mask stands as R70 ties it to the state. -/
def ChanState.masked : ChanState → Bool
  | .idle | .finished | .stopping _ => true
  | .waiting | .ready | .active | .stalled | .mastered => false

/-- The mask is set in IDLE, DONE and STOPPING, and clear in the other five states (R70). -/
def MaskAgrees (s : State) : Prop := ∀ c, (s.chan c).mask = (s.chan c).state.masked

/-- The queue and the list of control answers are within their capacities, the request in flight is the head, and only a control answer has
its place from the write that is being taken (R35, R46, R160). -/
def QueueGood (s : State) : Prop :=
  s.queue.records.length ≤ Config.queueCapacity ∧ s.queue.controls.length ≤ Config.controlCapacity ∧
    (s.queue.tied = true → s.queue.place = .control) ∧
    ∀ e, s.queue.exec = some e → s.queue.records.head? = some e.request

/-- The counters saturate where the rules say (R56, R64, R69, R161). -/
def CountsGood (s : State) : Prop :=
  s.arb.dmaCount ≤ 255 ∧ s.refresh.owed ≤ Config.refreshOwedMax ∧ s.intake.discards ≤ 255 ∧
    ∀ c, (s.chan c).tcOwed ≤ 255

/-- The owner is one whose cycles the board drives. -/
def BusOwner.drives : BusOwner → Bool
  | .hostPath | .dma _ | .refresh => true
  | .free | .master => false

/-- A cycle is in progress exactly while an owner whose cycles the board drives has the bus, it belongs to that owner, and while
the slot reset line is ASSERTED the bus has no owner (R2, R56, R58). -/
def BusGood (s : State) : Prop :=
  s.slot.cycle.isSome = s.arb.owner.drives ∧ (∀ cyc, s.slot.cycle = some cyc → cyc.owner = s.arb.owner) ∧
    (s.slot.line = .asserted → s.arb.owner = .free)

/-- A candidate and a poll selection are never held together (R130). -/
def DeliveryGood (s : State) : Prop := s.irq.delivery = none ∨ s.irq.poll = none

/-- The ring sizes (R162). -/
def ringSizes : List Nat := [64, 128, 256, 512, 1024, 2048, 4096]

/-- The ring has one of the seven sizes, and W - C never exceeds it (R162). -/
def RingGood (s : State) : Prop := s.ret.size ∈ ringSizes ∧ uncredited s.ret ≤ s.ret.size

/-- Every field of the settings entry is in its range (R171). -/
def SettingsGood (s : State) : Prop := settingsInRange s.settings = true

/-- Every table entry is one its owner's check accepts (R23, R100, R149). -/
def TablesGood (s : State) : Prop :=
  (∀ e, e ∈ s.windows.toList → winAccepted e = true) ∧ (∀ e, e ∈ s.map.toList → mapAccepted e = true) ∧
    (∀ e, e ∈ s.segments.toList → segAccepted e = true)

/-- A valid read line agrees with the map as it stands, and so does the fill that would become one: an aligned line, at the entry and the
host address that the map gives its first byte (R123). -/
def LineAgrees (s : State) : Prop :=
  (∀ rl, s.master.readLine = some rl →
    rl.addr % Config.lineBytes = 0 ∧ lookupMap s.map rl.addr .read = .found rl.entry rl.host) ∧
  ∀ f, s.master.fill = some f → f.ignored = false →
    f.addr % Config.lineBytes = 0 ∧ lookupMap s.map f.addr .read = .found f.entry f.host

/-- Host memory as the board has written it is in canonical form, the master write buffer is within its room, and the read line agrees with
the map (R103, R119, R123). -/
def BuffersGood (s : State) : Prop :=
  memWf s.host.mem = true ∧ s.master.buffer.length ≤ Config.masterEntries ∧ LineAgrees s

end Sys2Proof.Machine
end

