-- ==== Sys2Proof/Certificates/Slice0/Obligations.lean ====
section
/-! DEFINITION. The statements for the provers, by the blocks of the manual: each says what a command does to the state and what it
leaves alone, and that it answers a next state. -/

section

open Sys2Proof Sys2Proof.Machine

set_option Elab.async false

/-! ## The machine -/

/-- A step takes the command at the front of the queue and answers what its execution answers on the rest of the queue. -/
def Obligations.StepRunsTheFrontCommand : Prop :=
  ∀ (c : Instr) (rest : List Instr) (s : State),
    step { s with pending := c :: rest } = exec c { s with pending := rest }

/-- The count of the refresh timer in one microsecond that does not bring it to its period. -/
def Sys2Proof.Machine.refreshCounted (s : State) (r : Refresh) : Refresh :=
  { r with timer := if refreshRuns s then r.timer + 1 else r.timer }

/-- No command waits, no refresh falls due in the next microsecond, and no run is open. -/
def Sys2Proof.Machine.Calm (s : State) : Prop :=
  s.pending = [] ∧ (refreshRuns s = true → s.refresh.timer + 1 < setRefreshPeriod s.settings) ∧ ∀ c, (s.stage c).opened = none

/-- The model's choice (log entries 3 and 40): with no command waiting, a step is one microsecond. On a board with no ready timer, held
cycle, reset pulse or open run, and no limit reached, only the master hold meter and the refresh timer count. A timer that reaches its limit
in that microsecond acts as the row of its expiry does on the timer so counted: the ready timer of a cycle in progress, that of a held
cycle, the master hold meter, the refresh timer, the age of an open run, the reset timer and the settle timer. A run or a master tenure that
the expiry of a cycle's ready timer begins has counted nothing yet. -/
def Obligations.IdleStepCountsOneMicrosecond : Prop :=
  (∀ s : State, s.slot.readyTimer = none → s.master.stretched = none → s.slot.pulse = none → Calm s →
    (s.arb.owner = .master → setMasterHold s.settings = 0 ∨ s.arb.meter + 1 < setMasterHold s.settings) →
    step s = .next { s with
      queue := s.queue.settled
      arb := { s.arb with meter := if s.arb.owner = .master then s.arb.meter + 1 else s.arb.meter }
      refresh := refreshCounted s s.refresh }) ∧
  (∀ (s v : State) (r : ReadyTimer), Calm s → s.slot.readyTimer = some r → r.limit ≤ r.elapsed + 1 → s.slot.cycle ≠ none →
    s.master.stretched = none → s.slot.pulse = none → s.arb.owner ≠ .master →
    exec .readyLimitExpiry { s with
      queue := s.queue.settled, slot := { s.slot with readyTimer := some { r with elapsed := r.elapsed + 1 } } } = .next v →
    step s = .next { v with refresh := refreshCounted s v.refresh }) ∧
  (∀ (s v : State) (x : Stretched), Calm s → s.slot.readyTimer = none → s.slot.cycle = none → s.master.stretched = some x →
    x.timer.limit ≤ x.timer.elapsed + 1 → s.slot.pulse = none → s.arb.owner ≠ .master ∨ setMasterHold s.settings = 0 →
    exec .readyLimitExpiry { s with
      queue := s.queue.settled
      master := { s.master with stretched := some { x with timer := { x.timer with elapsed := x.timer.elapsed + 1 } } } } = .next v →
    step s = .next { v with
      arb := { v.arb with meter := if s.arb.owner = .master then v.arb.meter + 1 else v.arb.meter }
      refresh := refreshCounted s v.refresh }) ∧
  (∀ (s v : State), Calm s → s.slot.readyTimer = none → s.master.stretched = none → s.slot.pulse = none → s.arb.owner = .master →
    setMasterHold s.settings ≤ s.arb.meter + 1 →
    exec .masterHoldLimit { s with queue := s.queue.settled, arb := { s.arb with meter := s.arb.meter + 1 } } = .next v →
    step s = .next { v with refresh := refreshCounted s v.refresh }) ∧
  (∀ (s v : State), s.pending = [] → (∀ c, (s.stage c).opened = none) → s.slot.readyTimer = none → s.master.stretched = none →
    s.slot.pulse = none → s.arb.owner ≠ .master → refreshRuns s = true → setRefreshPeriod s.settings ≤ s.refresh.timer + 1 →
    exec .refreshTimerExpiry { s with
      queue := s.queue.settled, refresh := { s.refresh with timer := s.refresh.timer + 1 } } = .next v →
    step s = .next v) ∧
  (∀ (s v : State) (c : Chan) (r : Run), Calm { s with staging := s.staging.put c { s.stage c with opened := none } } →
    s.slot.readyTimer = none → s.master.stretched = none → s.slot.pulse = none → s.arb.owner ≠ .master →
    (s.stage c).opened = some r → setAgeLimit s.settings ≤ r.age + 1 →
    exec (.stagingAgeLimit c) { s with
      queue := s.queue.settled, refresh := refreshCounted s s.refresh
      staging := s.staging.put c { s.stage c with opened := some { r with age := r.age + 1 } } } = .next v →
    step s = .next v) ∧
  (∀ (s u : State) (p : Pulse), Calm s → s.slot.readyTimer = none → s.master.stretched = none → s.arb.owner ≠ .master →
    s.slot.pulse = some p →
    u = { s with
      queue := s.queue.settled, refresh := refreshCounted s s.refresh
      slot := { s.slot with pulse := some { p with elapsed := p.elapsed + 1 } } } →
    (s.slot.line = .asserted → p.durationMs * 1000 ≤ p.elapsed + 1 → step s = exec .resetDurationEnd u) ∧
    (s.slot.line = .settling → p.settleMs * 1000 ≤ p.elapsed + 1 → step s = exec .settleEnd u) ∧
    (s.slot.line = .asserted → p.elapsed + 1 < p.durationMs * 1000 → step s = .next u) ∧
    (s.slot.line = .settling → p.elapsed + 1 < p.settleMs * 1000 → step s = .next u))

/-- Link reset, in any state, gives every block the value of State.reset, and State.reset holds the values the manual lists. The
pins, the host's side, the command queue and the numbering of reads are the model's and stay (log entries 6, 11 and 34). -/
def Obligations.LinkResetGivesTheListedValues : Prop :=
  (∀ s : State, ∃ t, exec .linkReset s = .next t ∧
    t = { State.reset with
      pending := s.pending, pins := s.pins, host := s.host, staging := t.staging, stream := t.stream } ∧
    (∀ c, t.stage c = { opened := none, marks := [], chunks := [], readId := (s.stage c).readId,
                        cursor := ⟨0, 0, 0, .atEnd, .no⟩ }) ∧
    t.stream = { active := none, readId := s.stream.readId }) ∧
  State.reset.slot.line = .asserted ∧ State.reset.slot.held = true ∧ State.reset.slot.pulse = none ∧
  State.reset.slot.cycle = none ∧ State.reset.slot.clock = .mhz8 ∧ State.reset.slot.latch = ⟨.free, none⟩ ∧
  State.reset.slot.slotFault = none ∧
  (∀ n, State.reset.windows.toList.getD n ⟨0, 0, 0, 0⟩ = ⟨0, 0, 0, 0⟩) ∧
  (∀ n, State.reset.map.toList.getD n ⟨0, 0, 0, 0⟩ = ⟨0, 0, 0, 0⟩) ∧
  (∀ n, State.reset.segments.toList.getD n ⟨0, 0, 0, 0⟩ = ⟨0, 0, 0, 0⟩) ∧
  State.reset.queue = ⟨[], none, .running, false, false, [], .empty, none, 0, false⟩ ∧
  State.reset.arb = ⟨.free, false, 0, false, none, 0, false, none⟩ ∧
  State.reset.refresh = ⟨0, 0, 0, false, false⟩ ∧
  State.reset.dma.order = [.c0, .c1, .c2, .c3, .c5, .c6, .c7] ∧
  (∀ c, State.reset.chan c =
    { mode := .single, dir := .toMemory, decrement := false, autoReload := false, quiet := false, stopOnFault := false
      threshold := 8, limit := 16, page := 0, baseAddr := 0, baseCount := 0, curAddr := 0, curCount := 0
      nextBlock := none, mask := true, soft := false, blockRun := false, tcFlag := false, tcOwed := 0
      nextTaken := false, faults := 0, firstFault := 0, owedFaults := 0, owedAddr := 0, faultCauses := [], state := .idle }) ∧
  State.reset.order = [] ∧ State.reset.master = ⟨[], none, none, none, none, [], none⟩ ∧
  (∀ l, (State.reset.lineRec l).level = false ∧ (State.reset.lineRec l).mask = true ∧
    (State.reset.lineRec l).pending = false ∧ (State.reset.lineRec l).inService = false ∧
    (State.reset.lineRec l).overrun = false ∧ (State.reset.lineRec l).autoEnd = false ∧
    (State.reset.lineRec l).drain = PerChan.const false) ∧
  State.reset.irq.delivery = none ∧ State.reset.irq.poll = none ∧ State.reset.irq.pollWaiting = false ∧
  State.reset.ret = { ringSet := false, base := 0, size := 64, w := 0, c := 0, armed := false } ∧
  State.reset.intake = ⟨false, 0, none⟩ ∧
  setClock State.reset.settings = .mhz8 ∧ setReadyLimit State.reset.settings = 16 ∧
  setRefreshPeriod State.reset.settings = 15 ∧ setAgeLimit State.reset.settings = 100 ∧
  setTenureLimit State.reset.settings = 0 ∧ setMasterHold State.reset.settings = 0 ∧
  setRotating State.reset.settings = false ∧ setTop State.reset.settings = .l9 ∧ setNested State.reset.settings = true ∧
  statusWord State.reset = 0x00002040

/-! ## Link interface and intake -/

/-- What a record of a write leaves of the queue `old`, whose other effects made it `q`, with `more` of the write to come: where a control
answer holds the sequencer's place and took it in this write, it gives way to a response that waits for the ring now, both being of one
event, and is remembered while more of the write comes (R46, R160). That the records of a write are commands of their own that stand
together is the model's spelling (log entry 49). -/
def Sys2Proof.Machine.recordLeaves (more : Bool) (old q : Queue) : Queue :=
  if q.place = .control ∧ (old.place = .control → old.tied = true) then
    if ∃ e, q.exec = some e ∧ e.phase = .ended ∧ e.responds = true then { q with place := .response, tied := false }
    else { q with tied := more }
  else { q with tied := false }

/-- The intake record after a discard for a cause: the flag set, the count up by 1 to 255 at most, and the INTAKE FAULT owed for the
first cause since the last one was written. -/
def Sys2Proof.Machine.afterDiscard (k : DiscardCause) (i : Intake) : Intake :=
  { fault := true, discards := if i.discards < 255 then i.discards + 1 else 255,
    owed := match i.owed with
      | some k' => some k'
      | none => some k }

/-- A write outside the request port changes nothing; one to the port that is not whole pieces, and a record of no known kind, are
discarded and counted. A queued record that finds fewer than 64 held stands at the tail, and an idle RUNNING sequencer takes the head; one
that finds 64 is discarded as FULL. Nothing else changes but the model's own marks of a stream that has just ended (log entry 40) and of the
write being taken (log entry 49). A read of
the aperture returns the status word at 800h to 803h and 0 elsewhere; the word carries the queue room, the queue state, and the ring-set,
slot-held and intake fault flags as they stand. -/
def Obligations.IntakeAppendsOrDiscards : Prop :=
  (∀ (offset : BitVec 12) (bytes : List (Option Byte)) (s : State), 0x800 ≤ offset.toNat →
    decodeWrite offset bytes = [.apertureWriteIgnored offset] ∧ exec (.apertureWriteIgnored offset) s = .next s) ∧
  (∀ (offset : BitVec 12) (bytes : List (Option Byte)) (s : State), offset.toNat < 0x800 → s.intake.discards ≤ 255 →
    wholePieces offset (bytes.map Option.isSome) = false →
    decodeWrite offset bytes = [.malformed offset (bytes.map Option.isSome)] ∧
    exec (.malformed offset (bytes.map Option.isSome)) s = .next { s with intake := afterDiscard .malformed s.intake }) ∧
  (∀ (kind : Byte) (more : Bool) (s : State), knownKind kind = false → s.intake.discards ≤ 255 →
    exec (.unknown ⟨kind, more⟩) s = .next { s with
      intake := afterDiscard .unknown s.intake, queue := recordLeaves more s.queue s.queue }) ∧
  (∀ (r : Record) (more : Bool) (s : State), s.queue.records.length < 64 →
    exec (.queuedKindAppend ⟨r, more⟩) s = .next { s with queue := recordLeaves more s.queue { s.queue with
      records := s.queue.records ++ [r]
      finished := none
      exec := if s.queue.state = .running ∧ s.queue.exec = none then (s.queue.records ++ [r]).head?.map Exec.take
              else s.queue.exec } }) ∧
  (∀ (r : Record) (more : Bool) (s : State), 64 ≤ s.queue.records.length → s.intake.discards ≤ 255 →
    exec (.queuedKindAppend ⟨r, more⟩) s = .next { s with
      intake := afterDiscard .full s.intake, queue := recordLeaves more s.queue s.queue }) ∧
  (∀ s : State, (statusWord s).toNat = (64 - s.queue.records.length) +
    256 * (match s.queue.state with
      | .running => 0
      | .halted => 1
      | .faulted => 2) +
    (if s.ret.ringSet then 4096 else 0) + (if s.slot.held then 8192 else 0) + (if s.intake.fault then 16384 else 0)) ∧
  (∀ (s : State) (offset : BitVec 12) (len : Nat), offset.toNat + len ≤ 4096 → (apertureRead s offset len).length = len ∧
    ∀ i, i < len → (apertureRead s offset len)[i]? =
      some (if 0x800 ≤ offset.toNat + i ∧ offset.toNat + i ≤ 0x803 then
        (statusWord s).extractLsb' (8 * (offset.toNat + i - 0x800)) 8 else 0))

/-- RING SET, with the base taken down to a multiple of 16 and the size to the largest ring size not above it (64 below 64): a new
armed ring, whose slot 0 takes the RING SET response with phase flag 1, and then the MSI where the host has it enabled. The queue changes only
as part of a write that goes on (log entry 49). -/
def Obligations.RingSetStartsANewRing : Prop :=
  ∀ (tag : Byte) (base : BitVec 64) (size : Word) (more : Bool) (b : BitVec 64) (z : Nat) (s : State),
    b.toNat = base.toNat / 16 * 16 → z ∈ [64, 128, 256, 512, 1024, 2048, 4096] →
    (z ≤ size.toNat ∨ (z = 64 ∧ size.toNat < 64)) →
    (∀ y, y ∈ [64, 128, 256, 512, 1024, 2048, 4096] → y ≤ size.toNat → y ≤ z) →
    exec (.ringSet ⟨tag, more⟩ base size) s = .next { s with
      queue := recordLeaves more s.queue s.queue
      ret := { ringSet := true, base := b, size := z, w := 1, c := 0, armed := false }
      order := s.order ++
        [.write .record b.toNat
          ([0x81, tag, 0x30, if b = base ∧ z = size.toNat then 0x00 else 0x01] ++ le32 z ++ zeros8)] ++
        (if s.host.msiEnabled then [.write .msi 0 []] else []) }

/-- RING CREDIT: C rises by the number, 4096 at most and never past W; with the arm flag the MSI goes at once if records are still
uncredited, and otherwise notice is armed; the clear flag clears the intake fault flag; the answer carries the rise, and is left out
where the list of control answers is full. An answer that takes the sequencer's place in a write of more records is remembered, and gives way
to a response that a later record of the write makes wait. -/
def Obligations.RingCreditRaisesCAndArms : Prop :=
  ∀ (tag : Byte) (wants arm clear more : Bool) (number : BitVec 16) (n : Nat) (s : State),
    n = min (min number.toNat 4096) (s.ret.w - s.ret.c).toNat →
    exec (.ringCredit ⟨tag, more⟩ wants arm clear number) s = .next { s with
      ret := { s.ret with
        c := s.ret.c + BitVec.ofNat 32 n
        armed := if arm then decide (n = (s.ret.w - s.ret.c).toNat) else s.ret.armed }
      order := s.order ++
        (if arm ∧ n < (s.ret.w - s.ret.c).toNat ∧ s.host.msiEnabled then [.write .msi 0 []] else [])
      intake := { s.intake with fault := if clear then false else s.intake.fault }
      queue := recordLeaves more s.queue
        (if wants ∧ s.queue.controls.length < 16 then
          claimPlace { s.queue with controls := s.queue.controls ++ [⟨0x31, tag, ⟨.ok, n, zeros8⟩, true, none⟩] }
        else s.queue) }

/-- The queue once a control answer of status OK has been put at the tail of the list, if one is asked for. -/
def Sys2Proof.Machine.withAnswer (asked : Bool) (kind tag : Byte) (ready : Bool) (q : Queue) : Queue :=
  if asked then claimPlace { q with controls := q.controls ++ [⟨kind, tag, ⟨.ok, 0, zeros8⟩, ready, none⟩] } else q

/-- QUEUE HALT: at once with nothing in flight, behind the request in flight otherwise, and nothing further where a halt already waits
or the queue is HALTED or FAULTED; one that asks for an answer and finds 16 held is discarded as FULL. -/
def Obligations.QueueHaltActsByQueueState : Prop :=
  ∀ (tag : Byte) (wants more : Bool) (s : State),
    (wants = true → 16 ≤ s.queue.controls.length → s.intake.discards ≤ 255 →
      exec (.queueHalt ⟨tag, more⟩ wants) s = .next { s with
        intake := afterDiscard .full s.intake, queue := recordLeaves more s.queue s.queue }) ∧
    ((wants = false ∨ s.queue.controls.length < 16) →
      (s.queue.state = .running → s.queue.exec = none →
        exec (.queueHalt ⟨tag, more⟩ wants) s = .next { s with
            queue := recordLeaves more s.queue (withAnswer wants 0x32 tag true { s.queue.settled with state := .halted }) }) ∧
      (s.queue.state = .running → s.queue.exec ≠ none → s.queue.waitHalt = false →
        exec (.queueHalt ⟨tag, more⟩ wants) s = .next { s with
            queue := recordLeaves more s.queue (withAnswer wants 0x32 tag false { s.queue.settled with waitHalt := true }) }) ∧
      (s.queue.state = .running → s.queue.exec ≠ none → s.queue.waitHalt = true →
        exec (.queueHalt ⟨tag, more⟩ wants) s = .next { s with
          queue := recordLeaves more s.queue (withAnswer wants 0x32 tag true s.queue.settled) }) ∧
      (s.queue.state ≠ .running →
        exec (.queueHalt ⟨tag, more⟩ wants) s = .next { s with
          queue := recordLeaves more s.queue (withAnswer wants 0x32 tag true s.queue.settled) }))

/-- QUEUE RESUME: the queue is RUNNING and an idle sequencer takes the head; in RUNNING nothing changes but the answer, and waiting marks
stand; one that asks for an answer and finds 16 held is discarded as FULL. Its answer begins to wait ahead of the response of the record it
takes, also where that record ends at once: the model's choice (log entry 39). -/
def Obligations.QueueResumeRunsTheQueue : Prop :=
  ∀ (tag : Byte) (wants more : Bool) (s : State),
    (wants = true → 16 ≤ s.queue.controls.length → s.intake.discards ≤ 255 →
      exec (.queueResume ⟨tag, more⟩ wants) s = .next { s with
        intake := afterDiscard .full s.intake, queue := recordLeaves more s.queue s.queue }) ∧
    ((wants = false ∨ s.queue.controls.length < 16) →
      ∃ t, exec (.queueResume ⟨tag, more⟩ wants) s = .next t ∧ Within { queue := true } s t ∧
        t.queue = recordLeaves more s.queue { withAnswer wants 0x33 tag true s.queue.settled with
          state := .running
          exec := if s.queue.exec = none then s.queue.records.head?.map Exec.take else s.queue.exec })

/-- QUEUE ABORT with no request in flight that has started (one just taken has not, log entry 19): every record is discarded, the queue is
HALTED, waiting halts and the abort's own answer are ready, and the host path no longer waits. One that finds 16 answers held is discarded as
FULL. The answer's in-flight flag is clear, but for a stream that completed at the moment of the abort and retired with no response, which the
answer names: the model's choice (log entry 40). -/
def Obligations.QueueAbortEmptiesAnUnstartedQueue : Prop :=
  ∀ (tag : Byte) (more : Bool) (s : State) (last : Option Record),
    last = (match s.queue.exec with
      | some e => if e.phase = .waiting then none else s.queue.finished
      | none => s.queue.finished) →
    (16 ≤ s.queue.controls.length → s.intake.discards ≤ 255 →
      exec (.queueAbort ⟨tag, more⟩) s = .next { s with
        intake := afterDiscard .full s.intake, queue := recordLeaves more s.queue s.queue }) ∧
    (s.queue.controls.length < 16 →
      (∀ e, s.queue.exec = some e → e.phase = .taken ∨ e.phase = .waiting) →
      ∃ t, exec (.queueAbort ⟨tag, more⟩) s = .next t ∧
        Within { queue := true, stream := true, arb := true, xfer := true } s t ∧
        t.queue = recordLeaves more s.queue (claimPlace { s.queue with
          records := [], exec := none, state := .halted, waitHalt := false, waitAbort := false, finished := none
          controls := s.queue.controls.map (fun c => { c with ready := true }) ++
            [⟨0x34, tag, ⟨.ok, s.queue.records.length,
              match last with
              | some r => [1, r.kind.code, r.tag, 0, 0, 0, 0, 0]
              | none => zeros8⟩, true, none⟩] }) ∧
        t.stream = { s.stream with active := none } ∧
        t.arb = (if s.arb.hostWaiting then { s.arb with hostWaiting := false, hostTurn := false } else s.arb) ∧
        t.xfer = (if s.arb.hostWaiting then none else s.xfer))

/-- The state once QUEUE ABORT has discarded what stands behind a request `e` that has started, and waits for it and, by its number (the
model's, log entry 41), for the records it causes. -/
def Sys2Proof.Machine.behindAbort (tag : Byte) (e : Exec) (s : State) : State :=
  { s with queue := claimPlace { s.queue with
      records := s.queue.records.take 1
      waitAbort := true
      finished := none
      controls := s.queue.controls ++
        [⟨0x34, tag, ⟨.ok, s.queue.records.length - 1,
          if s.queue.waitAbort then zeros8 else [1, e.request.kind.code, e.request.tag, 0, 0, 0, 0, 0]⟩, false,
          some s.queue.number⟩] } }

/-- The response of a request that the record ends ABORTED has the sequencer's place ahead of an answer that took it in the same write. -/
def Sys2Proof.Machine.ResponseFirst (r : Record) (s t : State) : Prop :=
  s.queue.place = .control → s.queue.tied = true → respondsWith r .aborted = true → t.queue.place = .response

/-- QUEUE ABORT with a request in flight that has started: what stands behind it is discarded and the abort waits. A FENCE ends ABORTED with
the bytes it covers, a LINE POLL ends ABORTED and lets its selection go, a stream step on the bus is marked to end, and a stream between
steps ends ABORTED with the bytes moved; any other request, one that has ended, or one an earlier abort waits for, goes on. The
response of a request ended so goes ahead of a control answer that took the sequencer's place earlier in the same write. -/
def Obligations.QueueAbortWaitsForStartedWork : Prop :=
  ∀ (tag : Byte) (more : Bool) (s : State) (e : Exec), s.queue.controls.length < 16 → s.queue.exec = some e →
    e.phase = .active ∨ e.phase = .ended →
    ((s.queue.waitAbort = true ∨ e.phase = .ended ∨
        e.request.kind ∉ [.fence, .linePoll, .streamIn, .streamOut]) →
      exec (.queueAbort ⟨tag, more⟩) s = .next { behindAbort tag e s with
        queue := recordLeaves more s.queue (behindAbort tag e s).queue }) ∧
    (s.queue.waitAbort = false → e.phase = .active →
      (∀ n w, e.request.kind = .fence → e.work = .fence n w →
        ∃ t u, exec (.queueAbort ⟨tag, more⟩) s = .next t ∧ Ends e.request .aborted n zeros8 (behindAbort tag e s) u ∧
          t = { u with queue := recordLeaves more s.queue u.queue } ∧ ResponseFirst e.request s t) ∧
      (e.request.kind = .linePoll →
        ∃ t u, exec (.queueAbort ⟨tag, more⟩) s = .next t ∧
          Ends e.request .aborted 0 zeros8
            { behindAbort tag e s with irq := { s.irq with poll := none, pollWaiting := false } } u ∧
          Within { irq := true, staging := true, master := true, order := true, queue := true } u t ∧
          t.queue = recordLeaves more s.queue u.queue ∧ ResponseFirst e.request s t ∧
          t.irq.lines = s.irq.lines ∧ t.irq.poll = none) ∧
      (∀ x, (e.request.kind = .streamIn ∨ e.request.kind = .streamOut) → s.arb.owner = .hostPath →
        s.xfer = some x → exec (.queueAbort ⟨tag, more⟩) s =
          .next { behindAbort tag e s with
            xfer := some { x with aborted := x.aborted || !x.stopped }
            queue := recordLeaves more s.queue (behindAbort tag e s).queue }) ∧
      (∀ r, (e.request.kind = .streamIn ∨ e.request.kind = .streamOut) → s.arb.owner ≠ .hostPath →
        s.stream.active = some r →
        ∃ t u v, exec (.queueAbort ⟨tag, more⟩) s = .next t ∧
          Within { queue := true, stream := true, order := true, arb := true, xfer := true } s t ∧
          Ends e.request .aborted r.moved (streamData r.lastSeg 0xFF r.firstFault r.used) u v ∧
          t = { v with queue := recordLeaves more s.queue v.queue } ∧ ResponseFirst e.request s t ∧
          u.queue = (behindAbort tag e s).queue ∧
          u.order = s.order ++ (match r.piece with
            | some p => [.write .piece p.host p.bytes]
            | none => []) ∧
          u.arb.hostWaiting = false))

/-! ## Windows and host-path cycles -/

/-- The four slot requests: command, kind, space, and whether it reads. -/
def Sys2Proof.Machine.slotRows : List (Instr × ReqKind × Space × Bool) :=
  [(.portRead, .portRead, .port, true), (.portWrite, .portWrite, .port, false),
   (.memoryRead, .memoryRead, .memory, true), (.memoryWrite, .memoryWrite, .memory, false)]

/-- The operand check of a slot request: width 1 or 2 and a 16-bit address, or width 1 to 4 and a 24-bit address. -/
def Sys2Proof.Machine.slotCheck (sp : Space) (r : Record) : Prop :=
  match sp with
  | .port => (r.sub = 1 ∨ r.sub = 2) ∧ r.addr.toNat < 65536
  | .memory => 1 ≤ r.sub.toNat ∧ r.sub.toNat ≤ 4 ∧ r.addr.toNat < 16777216

/-- The window is valid, of the space, and its range holds the address. -/
def Sys2Proof.Machine.windowHolds (e : Entry) (sp : Space) (a : Nat) : Prop :=
  e.valid = true ∧ winSpace e = sp ∧ winBase e ≤ a ∧ a ≤ winLimit e

/-- Entry `n` is the lowest-numbered window that holds the first byte. -/
def Sys2Proof.Machine.Decides (s : State) (n : Nat) (e : Entry) (sp : Space) (a : Nat) : Prop :=
  s.windows.toList[n]? = some e ∧ windowHolds e sp a ∧
    ∀ m e', m < n → s.windows.toList[m]? = some e' → ¬ windowHolds e' sp a

/-- A slot request answered on the board: BAD REQUEST, then HELD, then NO WINDOW, then SPAN by the deciding entry alone, then REFUSED by a
REFUSE entry (whose answer always responds, with count 0 and data 00h, and takes no cycle and no bus), then the fill byte by a FILL entry. -/
def Obligations.SlotRequestsAreAnsweredOnTheBoard : Prop :=
  ∀ (c : Instr) (k : ReqKind) (sp : Space) (rd : Bool), (c, k, sp, rd) ∈ slotRows →
    ∀ (s : State) (r : Record), takenRecord s = some r → r.kind = k →
      (¬ slotCheck sp r → ∃ t, exec c s = .next t ∧ EndsPlain r .badRequest s t) ∧
      (slotCheck sp r → s.slot.held = true → ∃ t, exec c s = .next t ∧ EndsPlain r .held s t) ∧
      (slotCheck sp r → s.slot.held = false → (∀ e, e ∈ s.windows.toList → ¬ windowHolds e sp r.addr.toNat) →
        ∃ t, exec c s = .next t ∧ EndsPlain r .noWindow s t) ∧
      (∀ n e, slotCheck sp r → s.slot.held = false → Decides s n e sp r.addr.toNat →
        (winLimit e < r.addr.toNat + r.sub.toNat - 1 → ∃ t, exec c s = .next t ∧ EndsPlain r .span s t) ∧
        (r.addr.toNat + r.sub.toNat - 1 ≤ winLimit e → winAction e = 2 →
          ∃ t, exec c s = .next t ∧ respondsWith r .refusedByWindow = true ∧ EndsPlain r .refusedByWindow s t ∧
            t.slot = s.slot ∧ t.arb = s.arb ∧ t.queue.state = s.queue.state) ∧
        (r.addr.toNat + r.sub.toNat - 1 ≤ winLimit e → winAction e = 1 →
          ∃ t, exec c s = .next t ∧
            Ends r .ok r.sub.toNat
              (if rd then List.replicate r.sub.toNat (winFill e) ++ List.replicate (8 - r.sub.toNat) 0
               else [0, 0, 0, 0, 0, 0, 0, 0]) s t))

/-- The transfer a FORWARD request sets up from its window. -/
def Sys2Proof.Machine.forwardedXfer (sp : Space) (rd : Bool) (e : Entry) (r : Record) : Xfer :=
  { space := sp, isRead := rd, words := winWords e, waits := winWaits e, report := winReport e, forStream := false,
    addr := r.addr.toNat, left := r.sub.toNat, moved := [],
    out := if rd then [] else ([r.value.extractLsb' 0 8, r.value.extractLsb' 8 8, r.value.extractLsb' 16 8,
                                r.value.extractLsb' 24 8] : List Byte).take r.sub.toNat,
    lastLen := 0, lastFaulted := false, firstFault := none, stopped := false, aborted := false }

/-- A slot request that a FORWARD window takes waits for the bus while another owns it, with host turn set where the DMA tenure count has
reached its limit and no DMA tenure runs; with the bus free, the line not ASSERTED, no refresh owed and no channel READY, it is granted in
the same event: the first cycle begins, a word attempt at an even address of a WORDS window with 2 bytes left and a byte cycle else. -/
def Obligations.ForwardedRequestAsksForTheBus : Prop :=
  ∀ (c : Instr) (k : ReqKind) (sp : Space) (rd : Bool), (c, k, sp, rd) ∈ slotRows →
    ∀ (s : State) (x : Exec) (n : Nat) (e : Entry), s.queue.exec = some x → x.phase = .taken → x.request.kind = k →
      slotCheck sp x.request → s.slot.held = false → Decides s n e sp x.request.addr.toNat →
      x.request.addr.toNat + x.request.sub.toNat - 1 ≤ winLimit e → winAction e = 0 →
      (s.arb.owner ≠ .free →
        exec c s = .next { s with
          queue := { s.queue with exec := some { x with phase := .waiting } }
          xfer := some (forwardedXfer sp rd e x.request)
          arb := { s.arb with
            hostWaiting := true
            hostTurn := s.arb.hostTurn || (!s.arb.owner.isDma && setTenureLimit s.settings ≠ 0 &&
              setTenureLimit s.settings ≤ s.arb.dmaCount) } }) ∧
      (s.arb.owner = .free → s.slot.line ≠ .asserted → s.refresh.owed = 0 →
        (∀ d, d ∈ s.dma.order → (s.chan d).state ≠ .ready) →
        exec c s = .next { s with
          queue := { s.queue with exec := some { x with phase := .active } }
          xfer := some (forwardedXfer sp rd e x.request)
          arb := { s.arb with owner := .hostPath, hostWaiting := false, hostTurn := false, dmaCount := 0 }
          slot := { s.slot with
            clock := setClock s.settings
            readyTimer := none
            cycle := some
              { kind := if winWords e ∧ x.request.addr.toNat % 2 = 0 ∧ 2 ≤ x.request.sub.toNat then .word else .byte
                owner := .hostPath, use := .access sp rd, addr := x.request.addr.toNat, waits := winWaits e,
                sense := none, phase := .running, ready := false, check := false, tc := false,
                drive := (forwardedXfer sp rd e x.request).out.take
                  (if winWords e ∧ x.request.addr.toNat % 2 = 0 ∧ 2 ≤ x.request.sub.toNat then 2 else 1)
                discard := false } } })

/-- The end of a host-path cycle with ready high and no fault: it moves 2 bytes for a word attempt that is sensed and 1 else, which stands in
the low half of the command's data, also at an odd address: the model's choice (log entry 37). With bytes
left the next cycle begins at the next address. With none left the request ends with the bytes moved, its first fault deciding the status,
and the bus is given back: what is granted then touches no other part of it. -/
def Obligations.HostCycleEndMovesItsBytes : Prop :=
  ∀ (s : State) (cyc : Cycle) (x x' : Xfer) (sense : Bool) (data : BusWord) (n : Nat),
    s.slot.cycle = some cyc → cyc.phase = .running → cyc.owner = .hostPath → cyc.kind ∈ [.byte, .word] →
    cyc.sense = none → cyc.ready = false → cyc.check = false → s.xfer = some x → x.stopped = false → x.aborted = false →
    n = (if cyc.kind = .word ∧ sense = true then 2 else 1) →
    x' = { x with
      addr := x.addr + n, left := x.left - n, out := x.out.drop n, lastLen := n, lastFaulted := false
      moved := x.moved ++ ([data.extractLsb' 0 8, data.extractLsb' 8 8] : List Byte).take n } →
    (n < x.left →
      exec (.hostCycleEnd sense true data) s = .next { s with
        xfer := some x'
        slot := { s.slot with lastAddr := some cyc.addr, cycle := some x'.cycle, readyTimer := none } }) ∧
    (x.left ≤ n → x.forStream = false → ∀ e, s.queue.exec = some e →
      ∃ u t, exec (.hostCycleEnd sense true data) s = .next t ∧
        EndsWith (x.firstFault.isSome && !x.report) e.request
          (match x.firstFault with
            | none => .ok
            | some .ready => .ready
            | some .check => .check)
          x'.moved.length (if x.isRead then (x'.moved ++ List.replicate 8 0).take 8 else List.replicate 8 0)
          { s with
            xfer := none, arb := { s.arb with owner := .free }
            slot := { s.slot with cycle := none, readyTimer := none, lastAddr := none } } u ∧
        Within { slot := true, arb := true, dma := true, master := true } u t)

/-- The last clock of a cycle with ready low makes it EXTENDED, with the ready timer from zero against the limit in force; the release of
ready then does what the same command with ready high does at the last clock. The word-sense result is recorded at the last clock. -/
def Obligations.ReadyLowExtendsUntilReleased : Prop :=
  (∀ (s : State) (cyc : Cycle) (sense : Bool) (data : BusWord), s.slot.cycle = some cyc → cyc.phase = .running →
    (cyc.owner = .hostPath → cyc.kind ≠ .word ∨ cyc.sense ≠ none →
      exec (.hostCycleEnd sense false data) s = .next { s with slot := { s.slot with
        cycle := some { cyc with phase := .extended }, readyTimer := some ⟨setReadyLimit s.settings, 0⟩ } }) ∧
    (cyc.owner = .hostPath → cyc.kind = .word → cyc.sense = none →
      exec (.hostCycleEnd sense false data) s = .next { s with slot := { s.slot with
        cycle := some { cyc with
          phase := .extended, sense := some sense, kind := if sense then .word else .byte
          drive := if sense then cyc.drive else cyc.drive.take 1 }
        readyTimer := some ⟨setReadyLimit s.settings, 0⟩ } }) ∧
    (cyc.owner.isDma = true → cyc.kind = .unit →
      exec (.unitCycleEnd false data) s = .next { s with slot := { s.slot with
        cycle := some { cyc with phase := .extended }, readyTimer := some ⟨setReadyLimit s.settings, 0⟩ } }) ∧
    (cyc.owner = .refresh → cyc.kind = .refresh →
      exec (.refreshCycleEnd false) s = .next { s with slot := { s.slot with
        cycle := some { cyc with phase := .extended }, readyTimer := some ⟨setReadyLimit s.settings, 0⟩ } })) ∧
  (∀ (s s' : State) (cyc : Cycle) (data : BusWord), s.slot.cycle = some cyc → cyc.phase = .extended →
    s' = { s with slot := { s.slot with cycle := some { cyc with phase := .running } } } →
    (cyc.owner = .hostPath → s.xfer ≠ none → cyc.kind ≠ .word ∨ cyc.sense ≠ none → ∀ sense,
      ∃ t, exec (.readyRelease data) s = .next t ∧ exec (.hostCycleEnd sense true data) s' = .next t) ∧
    (cyc.owner.isDma = true → cyc.kind = .unit →
      ∃ t, exec (.readyRelease data) s = .next t ∧ exec (.unitCycleEnd true data) s' = .next t) ∧
    (cyc.owner = .refresh → cyc.kind = .refresh →
      ∃ t, exec (.readyRelease data) s = .next t ∧ exec (.refreshCycleEnd true) s' = .next t))

/-- The current address after one unit. -/
def Sys2Proof.Machine.steppedAddr (ch : Channel) : BitVec 16 := if ch.decrement then ch.curAddr - 1 else ch.curAddr + 1

/-- A unit of `n` bytes at `l`, found at map entry `e` and host address `h`, follows the run in the direction of the channel. -/
def Sys2Proof.Machine.JoinsRun (ch : Channel) (r : Run) (n l e h : Nat) : Prop :=
  r.entry = e ∧ h / 4096 = r.hostFirst / 4096 ∧
    (ch.decrement = false → l = r.last + 1 ∧ h = r.hostLast + 1) ∧
    (ch.decrement = true → l + n = r.first ∧ h + n = r.hostFirst)

/-- The run with such a unit's bytes: behind its own for INCREMENT, ahead of them for DECREMENT. -/
def Sys2Proof.Machine.joinedRun (ch : Channel) (r : Run) (bs : List Byte) (l h : Nat) : Run :=
  if ch.decrement then { r with first := l, hostFirst := h, bytes := bs ++ r.bytes }
  else { r with last := l + bs.length - 1, hostLast := h + bs.length - 1, bytes := r.bytes ++ bs }

/-- The run a unit has joined has reached the burst threshold, the end of its entry, or the end of its host frame. -/
def Sys2Proof.Machine.RunFull (ch : Channel) (en : Entry) (r : Run) : Prop :=
  ch.threshold ≤ r.bytes.length ∨
    (ch.decrement = false ∧ (r.last + 1 = (mapF en + mapN en) * 4096 ∨ (r.hostLast + 1) % 4096 = 0)) ∨
    (ch.decrement = true ∧ (r.first = mapF en * 4096 ∨ r.hostFirst % 4096 = 0))

/-- How `t` holds the bytes of a TO MEMORY unit at `l` that the map takes at entry `e` and host address `h`: it joins the run it follows,
which is decided at once where that fills it and stays open else; a unit that follows no open run begins one of age 0, behind the write of
the run that stood open. -/
def Sys2Proof.Machine.UnitPlaced (c : Chan) (bs : List Byte) (l e h : Nat) (s t : State) : Prop :=
  let ch := s.chan c
  let fresh : Run := ⟨l, l + bs.length - 1, e, h, h + bs.length - 1, bs, 0⟩
  ((s.stage c).opened = none → t.order = s.order ∧ t.stage c = { s.stage c with opened := some fresh }) ∧
  ∀ r j, (s.stage c).opened = some r → j = joinedRun ch r bs l h →
    (JoinsRun ch r bs.length l e h → RunFull ch (s.map.toList.getD e ⟨0, 0, 0, 0⟩) j →
      t.order = s.order ++ [.write (.run c) j.hostFirst j.bytes] ∧ t.stage c = { s.stage c with opened := none }) ∧
    (JoinsRun ch r bs.length l e h → ¬ RunFull ch (s.map.toList.getD e ⟨0, 0, 0, 0⟩) j →
      t.order = s.order ∧ t.stage c = { s.stage c with opened := some j }) ∧
    (¬ JoinsRun ch r bs.length l e h →
      t.order = s.order ++ [.write (.run c) r.hostFirst r.bytes] ∧ t.stage c = { s.stage c with opened := some fresh })

/-- The channel has taken unit faults at `l` with these flags: each is set and owed, and `l` is the first fault address where no fault was
recorded and the owed one where no CHANNEL FAULT was owed. -/
def Sys2Proof.Machine.TakesFaults (flags : BitVec 6) (l : Nat) (old new : Channel) : Prop :=
  new.faults = old.faults ||| flags ∧ new.owedFaults = old.owedFaults ||| flags ∧
    new.firstFault = (if old.faults = 0 ∧ old.firstFault = 0 then BitVec.ofNat 24 l else old.firstFault) ∧
    new.owedAddr = (if old.owedFaults = 0 then BitVec.ofNat 24 l else old.owedAddr)

/-- What a lookup that does not find the address makes of a unit. -/
def Sys2Proof.Machine.mapFlag : Lookup → BitVec 6
  | .miss => 0x04
  | .denied => 0x08
  | .found _ _ => 0

/-- The ready limit ends an EXTENDED cycle with a READY fault for its owner. A refresh cycle counts, and a SLOT FAULT is owed. A host-path
cycle under HALT does not count and its request ends READY with a HALT fault; under REPORT it counts as FFh and the transfer goes on. A
unit counts, and its channel records the fault: a TO MEMORY unit that the map takes stages FFh, which join the open run or begin one (left open,
log entry 14), and one that the map does not take stages nothing and takes that fault too; a FROM MEMORY unit's bytes are consumed, and a
VERIFY unit moves nothing. A write the port holds is lost, and a read it holds
is given FFh, each with a READY cause for MASTER FAULT. -/
def Obligations.ReadyLimitFaultsTheOwner : Prop :=
  (∀ (s : State) (cyc : Cycle), s.slot.cycle = some cyc → cyc.phase = .extended →
    (cyc.owner = .refresh → s.slot.slotFault = none →
      ∃ t, exec .readyLimitExpiry s = .next t ∧
        Within { slot := true, arb := true, queue := true, dma := true, master := true, refresh := true } s t ∧
        t.slot.slotFault = some ⟨.ready, true, some cyc.addr⟩ ∧ t.refresh.row = s.refresh.row + 1 ∧
        t.refresh.owed = s.refresh.owed - 1) ∧
    (∀ x e, cyc.owner = .hostPath → s.xfer = some x → x.report = false → x.forStream = false → x.firstFault = none →
      s.queue.exec = some e →
      ∃ u t, exec .readyLimitExpiry s = .next t ∧
        EndsWith true e.request .ready x.moved.length
          (if x.isRead then (x.moved ++ List.replicate 8 0).take 8 else List.replicate 8 0)
          { s with
            xfer := none, arb := { s.arb with owner := .free }
            slot := { s.slot with cycle := none, readyTimer := none, lastAddr := none } } u ∧
        Within { slot := true, arb := true, dma := true, master := true } u t) ∧
    (∀ x x' n, cyc.owner = .hostPath → s.xfer = some x → x.report = true → x.stopped = false → x.aborted = false →
      cyc.kind ∈ [.byte, .word] → n = (if cyc.kind = .word then 2 else 1) → n < x.left →
      x' = { x with
        addr := x.addr + n, left := x.left - n, out := x.out.drop n, lastLen := n, lastFaulted := true
        moved := x.moved ++ List.replicate n 0xFF
        firstFault := some (match x.firstFault with
          | some k => k
          | none => .ready) } →
      exec .readyLimitExpiry s = .next { s with
        xfer := some x'
        slot := { s.slot with lastAddr := some cyc.addr, cycle := some x'.cycle, readyTimer := none } }) ∧
    (∀ c, cyc.owner = .dma c → cyc.discard = false → cyc.tc = false → (s.chan c).dir = .verify →
      (s.chan c).state = .active → (s.chan c).stopOnFault = false →
      ∃ t, exec .readyLimitExpiry s = .next t ∧ t.staging = s.staging ∧ t.order = s.order ∧
        (t.chan c).faults = (s.chan c).faults ||| 0x01 ||| (if cyc.check then 0x02 else 0) ∧
        (t.chan c).owedFaults = (s.chan c).owedFaults ||| 0x01 ||| (if cyc.check then 0x02 else 0) ∧
        (t.chan c).curCount = (s.chan c).curCount - 1) ∧
    (∀ c i h, cyc.owner = .dma c → cyc.discard = false → cyc.tc = false → (s.chan c).dir = .toMemory →
      (s.chan c).state = .active → (s.chan c).stopOnFault = false → lookupMap s.map cyc.addr .write = .found i h →
      ∃ t, exec .readyLimitExpiry s = .next t ∧ UnitPlaced c (List.replicate c.unit 0xFF) cyc.addr i h s t ∧
        TakesFaults (0x01 ||| (if cyc.check then 0x02 else 0)) cyc.addr (s.chan c) (t.chan c) ∧
        (t.chan c).curAddr = steppedAddr (s.chan c) ∧ (t.chan c).curCount = (s.chan c).curCount - 1) ∧
    (∀ c o, cyc.owner = .dma c → cyc.discard = false → cyc.tc = false → (s.chan c).dir = .toMemory →
      (s.chan c).state = .active → (s.chan c).stopOnFault = false → lookupMap s.map cyc.addr .write = o →
      o = .miss ∨ o = .denied →
      ∃ t, exec .readyLimitExpiry s = .next t ∧ t.order = s.order ∧ t.stage c = s.stage c ∧
        TakesFaults (mapFlag o ||| 0x01 ||| (if cyc.check then 0x02 else 0)) cyc.addr (s.chan c) (t.chan c) ∧
        (t.chan c).curAddr = steppedAddr (s.chan c) ∧ (t.chan c).curCount = (s.chan c).curCount - 1) ∧
    (∀ c k ks bs, cyc.owner = .dma c → cyc.discard = false → cyc.tc = false → (s.chan c).dir = .fromMemory →
      (s.chan c).state = .active → (s.chan c).stopOnFault = false → (s.stage c).chunks = k :: ks → k.data = some bs →
      ∃ t, exec .readyLimitExpiry s = .next t ∧ t.order = s.order ∧
        t.stage c = { s.stage c with
          chunks := if bs.length ≤ c.unit then ks else { k with data := some (bs.drop c.unit) } :: ks } ∧
        (t.chan c).faults.getLsbD 0 = true ∧ (t.chan c).owedFaults.getLsbD 0 = true ∧
        ((s.chan c).faults = 0 → (s.chan c).firstFault = 0 → (t.chan c).firstFault = BitVec.ofNat 24 cyc.addr) ∧
        (t.chan c).curAddr = steppedAddr (s.chan c) ∧ (t.chan c).curCount = (s.chan c).curCount - 1)) ∧
  (∀ (s : State) (x : Stretched), s.slot.cycle = none → s.master.stretched = some x →
    ∃ t, exec .readyLimitExpiry s = .next t ∧ Within { master := true } s t ∧ t.master.stretched = none ∧
      t.master.buffer = s.master.buffer ∧ t.master.readLine = s.master.readLine ∧
      (∃ f, t.master.owedFault = some f ∧ f.ready = true ∧
        f.addr = (match s.master.owedFault with
          | some g => g.addr
          | none => x.addr)) ∧
      t.master.answered = (match x.kind with
        | .write _ => s.master.answered
        | .read len _ => some (List.replicate len 0xFF)))

/-! ## Units, refresh, checks and the clock -/

/-- The end of a unit that is not the terminal-count unit and takes no READY or CHECK fault: the channel's address and count step, and its data
move. A TO MEMORY unit that the map takes, a byte channel's from the low half of the data lines (log entry 37), joins the open run that it
follows, in either direction; the run is decided as it joins at the burst threshold, the end of the entry or the end of the host frame. One
that follows no open run closes the one there is and begins its own, which stays open wherever the unit stands, also at the last place of its
entry or host frame: the model's reading (log entry 14). The channel's faults keep. One that the map does not take is dropped: the open run
and the order stay, and the channel takes MISS or DENIED, owed as CHANNEL FAULT; under stop-on-fault it is masked, its open run is decided
and its tenure ends. A FROM MEMORY unit leaves the front of the buffer. A VERIFY unit moves nothing, and its page, faults and TC flag keep.
A DEMAND tenure of a VERIFY channel whose request stays active, with nothing that ends it, runs the next unit at once; a refresh that is owed
takes the bus at the boundary. -/
def Obligations.UnitCycleEndStepsTheChannel : Prop :=
  ∀ (s : State) (cyc : Cycle) (c : Chan) (data : BusWord), s.slot.cycle = some cyc → cyc.phase = .running →
    cyc.kind = .unit → cyc.owner = .dma c → cyc.discard = false → cyc.ready = false → cyc.check = false → cyc.tc = false →
    s.arb.owner = .dma c → (s.chan c).state = .active →
    (∃ t, exec (.unitCycleEnd true data) s = .next t ∧
      Within { slot := true, arb := true, queue := true, dma := true, staging := true, order := true, master := true,
               stream := true } s t ∧
      (∀ d, d ≠ c → t.stage d = s.stage d) ∧
      ((s.chan c).dir = .verify →
        t.staging = s.staging ∧ t.order = s.order ∧ (t.chan c).faults = (s.chan c).faults ∧
        (t.chan c).curAddr = steppedAddr (s.chan c) ∧ (t.chan c).curCount = (s.chan c).curCount - 1 ∧
        (t.chan c).page = (s.chan c).page ∧ (t.chan c).tcFlag = (s.chan c).tcFlag) ∧
      (∀ e h, (s.chan c).dir = .toMemory → lookupMap s.map cyc.addr .write = .found e h →
        UnitPlaced c (([data.extractLsb' 0 8, data.extractLsb' 8 8] : List Byte).take c.unit) cyc.addr e h s t ∧
        (t.chan c).faults = (s.chan c).faults ∧ (t.chan c).owedFaults = (s.chan c).owedFaults ∧
        (t.chan c).curAddr = steppedAddr (s.chan c) ∧ (t.chan c).curCount = (s.chan c).curCount - 1) ∧
      (∀ o, (s.chan c).dir = .toMemory → lookupMap s.map cyc.addr .write = o → o = .miss ∨ o = .denied →
        TakesFaults (mapFlag o) cyc.addr (s.chan c) (t.chan c) ∧ stagedCount c t = stagedCount c s ∧
        ((s.chan c).stopOnFault = false →
          t.order = s.order ∧ t.stage c = s.stage c ∧
          (t.chan c).curAddr = steppedAddr (s.chan c) ∧ (t.chan c).curCount = (s.chan c).curCount - 1) ∧
        ((s.chan c).stopOnFault = true → (s.chan c).mode ≠ .master →
          (t.stage c).opened = none ∧
          t.order = s.order ++ (match (s.stage c).opened with
            | some r => [.write (.run c) r.hostFirst r.bytes]
            | none => []) ∧
          (workOf s = .nothing →
            t.arb.owner ≠ .dma c ∧ (t.chan c).mask = true ∧ (t.chan c).soft = false ∧ (t.chan c).blockRun = false ∧
            (t.chan c).curAddr = steppedAddr (s.chan c) ∧ (t.chan c).curCount = (s.chan c).curCount - 1))) ∧
      (∀ k ks bs, (s.chan c).dir = .fromMemory → (s.stage c).chunks = k :: ks → k.data = some bs →
        t.order = s.order ∧
        (t.chan c).curAddr = steppedAddr (s.chan c) ∧ (t.chan c).curCount = (s.chan c).curCount - 1 ∧
        t.stage c = { s.stage c with
          chunks := if bs.length ≤ c.unit then ks else { k with data := some (bs.drop c.unit) } :: ks })) ∧
    ((s.chan c).dir = .verify → (s.chan c).mode = .demand → s.pins.dreq.get c = true → s.slot.line ≠ .asserted →
      s.refresh.owed = 0 → s.arb.hostWaiting = false →
      exec (.unitCycleEnd true data) s = .next { s with
        dma := { s.dma with chans := s.dma.chans.put c { s.chan c with
          curAddr := steppedAddr (s.chan c), curCount := (s.chan c).curCount - 1 } }
        arb := { s.arb with dmaCount := min 255 (s.arb.dmaCount + 1) }
        slot := { s.slot with
          lastAddr := some cyc.addr, readyTimer := none
          cycle := some
            { kind := .unit, owner := .dma c, use := .transfer .verify
              addr := legacyAddr c (s.chan c).page (steppedAddr (s.chan c)), waits := 0, sense := none, phase := .running
              ready := false, check := false, tc := (s.chan c).curCount = 1, drive := [], discard := false } } }) ∧
    (0 < s.refresh.owed → s.slot.line ≠ .asserted →
      ∃ t, exec (.unitCycleEnd true data) s = .next t ∧ t.arb.owner = .refresh ∧
        (t.chan c).state ≠ .active ∧ t.slot.clock = setClock s.settings ∧
        ∃ cyc', t.slot.cycle = some cyc' ∧ cyc'.kind = .refresh ∧ cyc'.addr = s.refresh.row.toNat)

/-- The end of the terminal-count unit of channel `c`, in a tenure of its own and with no fault. -/
def Sys2Proof.Machine.TerminalUnit (s : State) (c : Chan) : Prop :=
  (∃ cyc, s.slot.cycle = some cyc ∧ cyc.phase = .running ∧ cyc.kind = .unit ∧ cyc.owner = .dma c ∧ cyc.discard = false ∧
    cyc.ready = false ∧ cyc.check = false ∧ cyc.tc = true) ∧
  s.arb.owner = .dma c ∧ (s.chan c).state = .active

/-- The terminal-count unit. A SINGLE VERIFY channel that no CHANNEL MASK clear waits for takes a next block up; else auto-reload loads the
base; else the channel is masked and DONE. The TC flag is set, the soft request is cleared, and a CHANNEL END is owed unless the channel is
quiet; a quiet channel leaves its next taken field as it is, which is the model's reading (log entry 16). A TO MEMORY channel, in any mode of
its own units, makes a flush demand for every byte staged, this unit's among them, and its open run is decided; where it stops, its STOPPING
makes another. The cursor of a FROM MEMORY channel that goes on and has passed the terminal count is at the channel's pass again, and one that
waited ahead takes up what follows; one that stops has nothing staged. A BLOCK VERIFY channel that goes on into a new pass runs its next unit
in the same tenure while its line asks, with block run set, and else gives the bus back. -/
def Obligations.TerminalCountReloadsOrStops : Prop :=
  (∀ (s : State) (c : Chan) (data : BusWord) (a i h : Nat), TerminalUnit s c → (s.slot.cycle.map Cycle.addr) = some a →
    (s.chan c).dir = .toMemory → (s.chan c).mode ≠ .master → lookupMap s.map a .write = .found i h →
    ∃ t, exec (.unitCycleEnd true data) s = .next t ∧ (t.stage c).opened = none ∧ (t.chan c).tcFlag = true ∧
      (t.chan c).soft = false ∧ s.order <+: t.order ∧ stagedCount c t = stagedCount c s + c.unit ∧
      ((s.stage c).opened = none → t.order = s.order ++ [.write (.run c) h
        (([data.extractLsb' 0 8, data.extractLsb' 8 8] : List Byte).take c.unit)]) ∧
      ((s.chan c).nextBlock ≠ none ∨ (s.chan c).autoReload = true →
        (t.stage c).marks = (s.stage c).marks ++ [stagedCount c s + c.unit] ∧ (t.chan c).mask = (s.chan c).mask) ∧
      ((s.chan c).nextBlock = none → (s.chan c).autoReload = false →
        (t.stage c).marks = (s.stage c).marks ++ [stagedCount c s + c.unit, stagedCount c s + c.unit] ∧
        (t.chan c).mask = true ∧ (t.chan c).state = .stopping .finished)) ∧
  (∀ (s : State) (c : Chan) (data : BusWord) (k : Chunk) (ks ks' : List Chunk) (bs : List Host.Cell), TerminalUnit s c →
    (s.chan c).dir = .fromMemory → (s.chan c).mode ≠ .master → (s.stage c).chunks = k :: ks → k.data = some bs →
    ks' = (if bs.length ≤ c.unit then ks else { k with data := some (bs.drop c.unit) } :: ks) →
    ∃ t, exec (.unitCycleEnd true data) s = .next t ∧ t.order = s.order ∧ (t.chan c).tcFlag = true ∧
      ((s.chan c).nextBlock = none → (s.chan c).autoReload = false → (t.stage c).chunks = [] ∧
        (workOf s = .nothing → (t.chan c).mask = true)) ∧
      ((s.chan c).nextBlock ≠ none ∨ (s.chan c).autoReload = true →
        ((s.stage c).cursor.passed = .no → t.stage c = { s.stage c with chunks := ks' }) ∧
        ((s.stage c).cursor.passed ≠ .no →
          (t.stage c).chunks = ks'.map (fun k' => { k' with beyond := false }) ∧ (t.stage c).cursor.page = (s.stage c).cursor.page ∧
          ((s.stage c).cursor.state ≠ .waitingAhead →
            (t.stage c).cursor = { (s.stage c).cursor with passed := .no }) ∧
          ((s.stage c).cursor.state = .waitingAhead → (s.chan c).autoReload = false →
            (t.stage c).cursor = { (s.stage c).cursor with passed := .no, state := .atEnd }) ∧
          (∀ b, (s.stage c).cursor.state = .waitingAhead → (s.chan c).autoReload = true → (s.chan c).nextBlock = some b →
            (t.stage c).cursor = ⟨(s.stage c).cursor.page, b.addr, b.count, .reading, .reload⟩) ∧
          ((s.stage c).cursor.state = .waitingAhead → (s.chan c).autoReload = true → (s.chan c).nextBlock = none →
            (t.stage c).cursor =
              ⟨(s.stage c).cursor.page, (s.chan c).baseAddr, (s.chan c).baseCount, .reading, .reload⟩)))) ∧
  (∀ (s : State) (c : Chan) (data : BusWord) (p : BitVec 8) (a n : BitVec 16), TerminalUnit s c → (s.chan c).dir = .verify →
    (s.chan c).mode = .block →
    ((∃ b, (s.chan c).nextBlock = some b ∧ p = b.page ∧ a = b.addr ∧ n = b.count) ∨
      ((s.chan c).nextBlock = none ∧ (s.chan c).autoReload = true ∧ p = (s.chan c).page ∧ a = (s.chan c).baseAddr ∧
        n = (s.chan c).baseCount)) →
    (s.pins.dreq.get c = true → s.slot.line ≠ .asserted → s.refresh.owed = 0 → s.arb.hostWaiting = false →
      ∃ t cyc', exec (.unitCycleEnd true data) s = .next t ∧
        t.arb = { s.arb with dmaCount := min 255 (s.arb.dmaCount + 1) } ∧ (t.chan c).state = .active ∧
        (t.chan c).blockRun = true ∧ (t.chan c).soft = false ∧ (t.chan c).tcFlag = true ∧ (t.chan c).mask = (s.chan c).mask ∧
        (t.chan c).page = p ∧ (t.chan c).curAddr = a ∧ (t.chan c).curCount = n ∧ t.slot.cycle = some cyc' ∧
        cyc'.owner = .dma c ∧ cyc'.addr = legacyAddr c p a ∧ (cyc'.tc = true ↔ n = 0)) ∧
    (s.pins.dreq.get c = false →
      ∃ t, exec (.unitCycleEnd true data) s = .next t ∧ (t.chan c).state = .waiting ∧ (t.chan c).blockRun = false ∧
        (t.chan c).page = p ∧ (t.chan c).curAddr = a ∧ (t.chan c).curCount = n)) ∧
  ∀ (s : State) (cyc : Cycle) (c : Chan) (data : BusWord) (ch : Channel), s.slot.cycle = some cyc → cyc.phase = .running →
    cyc.kind = .unit → cyc.owner = .dma c → cyc.discard = false → cyc.ready = false → cyc.check = false → cyc.tc = true →
    s.arb.owner = .dma c → s.arb.masterChan = none → ch = s.chan c → ch.state = .active → ch.dir = .verify →
    ch.mode = .single → ch.tcOwed ≤ 255 → workOf s = .nothing →
    ∃ t, exec (.unitCycleEnd true data) s = .next t ∧
      Within { slot := true, arb := true, queue := true, dma := true, master := true } s t ∧
      (t.chan c).tcFlag = true ∧ (t.chan c).soft = false ∧ (t.chan c).blockRun = false ∧
      (t.chan c).tcOwed = (if ch.quiet then ch.tcOwed else if ch.tcOwed < 255 then ch.tcOwed + 1 else 255) ∧
      (t.chan c).nextTaken = (ch.nextTaken || (!ch.quiet && ch.nextBlock.isSome)) ∧
      (∀ b, ch.nextBlock = some b →
        (t.chan c).nextBlock = none ∧ (t.chan c).page = b.page ∧ (t.chan c).baseAddr = b.addr ∧
        (t.chan c).baseCount = b.count ∧ (t.chan c).curAddr = b.addr ∧ (t.chan c).curCount = b.count ∧
        (t.chan c).mask = ch.mask) ∧
      (ch.nextBlock = none → ch.autoReload = true →
        (t.chan c).page = ch.page ∧ (t.chan c).curAddr = ch.baseAddr ∧ (t.chan c).curCount = ch.baseCount ∧
        (t.chan c).mask = ch.mask) ∧
      (ch.nextBlock = none → ch.autoReload = false →
        (t.chan c).state = .finished ∧ (t.chan c).mask = true ∧ (t.chan c).curAddr = steppedAddr ch ∧
        (t.chan c).curCount = ch.curCount - 1)

/-- The end of a refresh cycle advances the row and pays one owed cycle: with more owed the next begins in the same tenure, and with none
the tenure and its episode end and the bus is given back. The refresh timer's expiry owes one more, up to 4; at 4 it is lost, and the first
loss of an episode owes REFRESH LATE; with the bus free a refresh is granted at once. Where the timer does not run nothing changes. -/
def Obligations.RefreshIsOwedAndPaid : Prop :=
  (∀ (s : State) (cyc : Cycle), s.slot.cycle = some cyc → cyc.phase = .running → cyc.owner = .refresh → cyc.kind = .refresh →
    (2 ≤ s.refresh.owed →
      exec (.refreshCycleEnd true) s = .next { s with
        refresh := { s.refresh with row := s.refresh.row + 1, owed := s.refresh.owed - 1 }
        slot := { s.slot with
          lastAddr := some cyc.addr, readyTimer := none
          cycle := some { kind := .refresh, owner := .refresh, use := .row, addr := (s.refresh.row + 1).toNat, waits := 0,
                          sense := none, phase := .running, ready := false, check := false, tc := false, drive := [],
                          discard := false } } }) ∧
    (s.refresh.owed = 1 → s.slot.line ≠ .asserted → (∀ d, d ∈ s.dma.order → (s.chan d).state ≠ .ready) →
      s.arb.hostWaiting = false →
      exec (.refreshCycleEnd true) s = .next { s with
        refresh := { s.refresh with row := s.refresh.row + 1, owed := 0, episode := false }
        arb := { s.arb with owner := .free }
        slot := { s.slot with lastAddr := none, readyTimer := none, cycle := none, clock := setClock s.settings } })) ∧
  (∀ s : State,
    (s.slot.line = .asserted ∨ setRefreshPeriod s.settings = 0 → exec .refreshTimerExpiry s = .next s) ∧
    (s.slot.line ≠ .asserted → setRefreshPeriod s.settings ≠ 0 →
      (s.refresh.owed < 4 → s.arb.owner ≠ .free →
        exec .refreshTimerExpiry s = .next { s with refresh := { s.refresh with timer := 0, owed := s.refresh.owed + 1 } }) ∧
      (s.refresh.owed < 4 → s.arb.owner = .free →
        exec .refreshTimerExpiry s = .next { s with
          refresh := { s.refresh with timer := 0, owed := s.refresh.owed + 1 }
          arb := { s.arb with owner := .refresh }
          slot := { s.slot with
            clock := setClock s.settings, readyTimer := none
            cycle := some { kind := .refresh, owner := .refresh, use := .row, addr := s.refresh.row.toNat, waits := 0,
                            sense := none, phase := .running, ready := false, check := false, tc := false, drive := [],
                            discard := false } } }) ∧
      (s.refresh.owed = 4 → s.refresh.episode = false →
        exec .refreshTimerExpiry s = .next { s with refresh := { s.refresh with timer := 0, episode := true, late := true } }) ∧
      (s.refresh.owed = 4 → s.refresh.episode = true →
        exec .refreshTimerExpiry s = .next { s with refresh := { s.refresh with timer := 0 } })))

/-- A check edge is ignored while the line is ASSERTED; else the latch records the owner and its address, and the check is charged: to
the host path's cycle in progress and its transfer, to a unit in progress, to the channel of a master tenure, or, with REFRESH or no
owner, as a SLOT FAULT that keeps its first content (a refresh cycle's own record keeps its fault field, log entry 38). An edge between two
units of a tenure that stop-on-fault then ends, with the host path waiting at the tenure limit, gives the bus to the host path. -/
def Obligations.CheckEdgeIsLatchedAndCharged : Prop :=
  (∀ (b : Bool) (s : State), s.slot.line = .asserted → exec (.cardCheckEdge b) s = .next s) ∧
  (∀ (b : Bool) (s : State), s.slot.line ≠ .asserted → s.arb.owner = .free →
    exec (.cardCheckEdge b) s = .next { s with slot := { s.slot with
      latch := ⟨.free, none⟩
      slotFault := match s.slot.slotFault with
        | some f => some f
        | none => some ⟨.check, false, none⟩ } }) ∧
  (∀ (s : State) (cyc : Cycle), s.slot.line ≠ .asserted → s.slot.cycle = some cyc →
    (s.arb.owner = .refresh →
      exec (.cardCheckEdge false) s = .next { s with slot := { s.slot with
        latch := ⟨.refresh, some cyc.addr⟩
        slotFault := match s.slot.slotFault with
          | some f => some f
          | none => some ⟨.check, true, some cyc.addr⟩ } }) ∧
    (∀ c, s.arb.owner = .dma c →
      exec (.cardCheckEdge false) s = .next { s with slot := { s.slot with
        latch := ⟨.dma c, some cyc.addr⟩, cycle := some { cyc with check := true } } }) ∧
    (∀ x, s.arb.owner = .hostPath → s.xfer = some x → cyc.check = false → cyc.ready = false →
      exec (.cardCheckEdge false) s = .next { s with
        xfer := some { x with
          firstFault := some (match x.firstFault with
            | some k => k
            | none => .check)
          stopped := x.stopped || !x.report }
        slot := { s.slot with latch := ⟨.hostPath, some cyc.addr⟩, cycle := some { cyc with check := true } } })) ∧
  (∀ (b : Bool) (s : State) (c : Chan), s.slot.line ≠ .asserted → s.arb.owner = .master → s.arb.masterChan = some c →
    (s.chan c).stopOnFault = false →
    ∃ t, exec (.cardCheckEdge b) s = .next t ∧ Within { slot := true, dma := true } s t ∧
      t.slot = { s.slot with latch := ⟨.master, s.arb.lastMaster⟩ } ∧
      (t.chan c).faults = (s.chan c).faults ||| 0x02 ∧ (t.chan c).owedFaults = (s.chan c).owedFaults ||| 0x02 ∧
      ((s.chan c).faults = 0 → (s.chan c).firstFault = 0 →
        (t.chan c).firstFault = BitVec.ofNat 24 (s.arb.lastMaster.getD 0)) ∧
      (t.chan c).state = (s.chan c).state ∧ (∀ d, d ≠ c → t.chan d = s.chan d)) ∧
  (∀ (s : State) (c : Chan) (a : Nat), s.slot.line ≠ .asserted → s.arb.owner = .dma c → s.slot.lastAddr = some a →
    (∀ cyc, s.slot.cycle = some cyc → cyc.discard = false) → (s.chan c).state = .active → (s.chan c).stopOnFault = true →
    s.refresh.owed = 0 → s.arb.hostWaiting = true → s.xfer ≠ none → setTenureLimit s.settings ≠ 0 →
    setTenureLimit s.settings ≤ s.arb.dmaCount →
    ∃ t, exec (.cardCheckEdge true) s = .next t ∧ t.slot.latch = ⟨.dma c, some a⟩ ∧ t.arb.owner = .hostPath ∧
      t.arb.hostTurn = false ∧ t.arb.dmaCount = 0 ∧ (t.chan c).faults.getLsbD 1 = true ∧
      (workOf s = .nothing → (t.chan c).mask = true))

/-! ## Resets -/

/-- The record in flight is one just taken, with no work of its own yet. -/
def Sys2Proof.Machine.JustTaken (s : State) (x : Exec) : Prop := s.queue.exec = some x ∧ x.phase = .taken ∧ x.work = .nothing

/-- SLOT RESET with a duration of 0 is BAD REQUEST; any other stays in flight with the line ASSERTED, the cycle cut off and the reset timer
started. The bus is empty, refresh is paused with its row kept, every channel is masked with soft request and block run clear, its state is
IDLE, DONE or STOPPING and every other field of its record is kept, one in IDLE or DONE stays there, the line records keep their settings
only, the candidate is dropped, the read line is invalid and a held master cycle is let go without a fault; the tables, settings, ring,
intake, pins and host keep. -/
def Obligations.SlotResetAssertsTheLine : Prop :=
  ∀ (s : State) (x : Exec), JustTaken s x → x.request.kind = .slotReset →
    (field x.request.addr 0 8 = 0 → ∃ t, exec .slotReset s = .next t ∧ EndsPlain x.request .badRequest s t) ∧
    (field x.request.addr 0 8 ≠ 0 →
      ∃ t, exec .slotReset s = .next t ∧
        Within { slot := true, arb := true, refresh := true, dma := true, staging := true, order := true, master := true,
                 irq := true, queue := true } s t ∧
        t.queue = { s.queue with exec := some { x with phase := .active } } ∧
        t.slot = { s.slot with
          cycle := none, readyTimer := none, lastAddr := none, line := .asserted, clock := setClock s.settings
          pulse := some ⟨field x.request.addr 0 8, field x.request.addr 8 8, 0⟩ } ∧
        t.arb = { s.arb with owner := .free, hostTurn := false, masterChan := none, meter := 0, longReported := false,
                             lastMaster := none } ∧
        t.refresh = { s.refresh with timer := 0, owed := 0, episode := false } ∧
        (∀ c, (t.chan c).mask = true ∧ (t.chan c).soft = false ∧ (t.chan c).blockRun = false ∧
          (t.chan c).state.masked = true ∧ ((s.chan c).state = .idle ∨ (s.chan c).state = .finished →
            (t.chan c).state = (s.chan c).state) ∧
          t.chan c = { s.chan c with
            mask := (t.chan c).mask, soft := (t.chan c).soft, blockRun := (t.chan c).blockRun, state := (t.chan c).state }) ∧
        (∀ c, (s.chan c).state = .active ∨ (s.chan c).state = .waiting →
          ((s.chan c).mode ≠ .master → (s.chan c).dir = .fromMemory → (t.stage c).chunks = []) ∧
          ((s.chan c).mode ≠ .master → (s.chan c).dir = .toMemory → (t.stage c).opened = none)) ∧
        (∀ l, t.lineRec l = { s.lineRec l with pending := false, inService := false, overrun := false }) ∧
        t.irq.delivery = none ∧ t.irq.poll = s.irq.poll ∧
        t.master = { s.master with
          readLine := none, stretched := none, fill := s.master.fill.map (fun f => { f with ignored := true }) })

/-- The reset timer's end releases the line: SETTLING, or, with a settle time of 0, RELEASED with the request ended OK. The pending fields
of LEVEL lines follow their lines again, the refresh timer starts from 0, and the held flag falls only with RELEASED. The settle timer's
end makes the line RELEASED and ends the request OK. Neither does anything without its timer running. -/
def Obligations.ResetTimersReleaseTheLine : Prop :=
  (∀ (s : State) (p : Pulse), s.slot.pulse = some p → s.slot.line = .asserted → s.xfer = none → s.irq.poll = none →
    s.irq.pollWaiting = false → p.settleMs ≠ 0 →
    ∃ t, exec .resetDurationEnd s = .next t ∧ t.slot.line = .settling ∧ t.slot.held = s.slot.held ∧
      t.slot.pulse = some { p with elapsed := 0 } ∧ t.refresh = { s.refresh with timer := 0 } ∧ t.queue = s.queue ∧
      t.stream = s.stream ∧ t.windows = s.windows ∧ t.map = s.map ∧ t.settings = s.settings ∧
      (∀ l, t.lineRec l = { s.lineRec l with
        pending := if (s.lineRec l).level then s.pins.irq.get l else (s.lineRec l).pending })) ∧
  (∀ (s : State) (p : Pulse) (x : Exec), s.slot.pulse = some p → s.slot.line = .asserted → s.xfer = none →
    s.irq.poll = none → s.irq.pollWaiting = false → p.settleMs = 0 → s.queue.exec = some x →
    ∃ t, exec .resetDurationEnd s = .next t ∧ t.slot.line = .released ∧ t.slot.held = false ∧ t.slot.pulse = none ∧
      (respondsWith x.request .ok = true → t.queue.exec = some
        { request := x.request, phase := .ended, answer := ⟨.ok, 0, zeros8⟩, responds := true, haltFault := false,
          work := .nothing }) ∧
      (respondsWith x.request .ok = false → t.queue.records = s.queue.records.tail)) ∧
  (∀ (s : State) (p : Pulse) (x : Exec), s.slot.pulse = some p → s.slot.line = .settling → s.xfer = none →
    s.queue.exec = some x →
    ∃ u t, exec .settleEnd s = .next t ∧
      EndsPlain x.request .ok { s with slot := { s.slot with line := .released, held := false, pulse := none } } u ∧
      Within { slot := true, arb := true, dma := true, master := true } u t ∧ t.slot.line = .released) ∧
  (∀ s : State, (s.slot.pulse = none ∨ s.slot.line ≠ .asserted → exec .resetDurationEnd s = .next s) ∧
    (s.slot.pulse = none ∨ s.slot.line ≠ .settling → exec .settleEnd s = .next s))

/-- The channel owns the bus: by its own unit, or by the master tenure its grant began. -/
def Sys2Proof.Machine.OwnsBus (s : State) (c : Chan) : Prop := s.arb.owner = .dma c ∨ (s.arb.owner = .master ∧ s.arb.masterChan = some c)

/-- What PART RESET returns to its reset value in `t` and what it keeps of `s`. -/
structure Sys2Proof.Machine.PartCleared (s t : State) : Prop where
  tables : t.windows = Vector.replicate 32 ⟨0, 0, 0, 0⟩ ∧ t.map = Vector.replicate 32 ⟨0, 0, 0, 0⟩ ∧
    t.segments = Vector.replicate 64 ⟨0, 0, 0, 0⟩
  staging : ∀ c, (t.stage c).opened = none ∧ (t.stage c).marks = [] ∧ (t.stage c).chunks = [] ∧
    (t.stage c).cursor = ⟨0, 0, 0, .atEnd, .no⟩
  lines : ∀ l, t.lineRec l = ⟨false, true, false, false, false, PerChan.const false, false⟩
  selection : t.irq.delivery = none ∧ t.irq.poll = none
  master : t.master.readLine = none ∧ t.master.stretched = none ∧ t.master.owedFault = none ∧ t.master.drains = [] ∧
    t.master.buffer = s.master.buffer.takeWhile MasterEntry.decided ∧
    t.master.fill = s.master.fill.map (fun f => { f with ignored := true }) ∧
    t.master.answered = (match s.master.stretched with
      | some x =>
        match x.kind with
        | .read len _ => some (List.replicate len 0xFF)
        | .write _ => s.master.answered
      | none => s.master.answered)
  order : t.order = (s.order.filter (fun i => match i with
    | .write (.run _) _ _ => false
    | _ => true)).dropWhile OrderItem.isRead
  dmaOrder : t.dma.order = [.c0, .c1, .c2, .c3, .c5, .c6, .c7] ∨ setRotating s.settings = true
  channels : ∀ c, t.chan c =
    { mode := .single, dir := .toMemory, decrement := false, autoReload := false, quiet := false, stopOnFault := false
      threshold := 8, limit := 16, page := 0, baseAddr := 0, baseCount := 0, curAddr := 0, curCount := 0
      nextBlock := none, mask := true, soft := false, blockRun := false, tcFlag := false, tcOwed := 0
      nextTaken := false, faults := 0, firstFault := 0, owedFaults := 0, owedAddr := 0, faultCauses := []
      state := (t.chan c).state }
  keeps : t.settings = s.settings ∧ t.ret = s.ret ∧ t.intake = s.intake ∧ t.pins = s.pins ∧ t.host = s.host ∧
    t.xfer = s.xfer ∧ t.refresh.row = s.refresh.row ∧ t.refresh.late = s.refresh.late ∧
    t.slot.slotFault = s.slot.slotFault ∧ t.slot.held = s.slot.held ∧ t.slot.latch = s.slot.latch

/-- PART RESET with the pulse flag and a duration of 0 is BAD REQUEST. Else one event returns the tables, channels, staging, lines and master
port to their reset values, every field of a channel record among them, and keeps the rest; a channel that owns the bus is STOPPING until it
gives it back, and every other is IDLE. The order of host writes keeps every place but those of staged runs, and the reads that no write is
left ahead of are sent; the prefetch cursors return to rest, an outstanding line fill is marked to be ignored, and a held read is given
FFh. Without the pulse flag the request ends OK and the bus and the line are as they were; with it the line is ASSERTED and the request stays
in flight. -/
def Obligations.PartResetClearsTheTables : Prop :=
  ∀ (s : State) (x : Exec), JustTaken s x → x.request.kind = .partReset →
    (flag1 x.request = true → field x.request.addr 0 8 = 0 →
      ∃ t, exec .partReset s = .next t ∧ EndsPlain x.request .badRequest s t) ∧
    (flag1 x.request = false →
      ∃ u t, exec .partReset s = .next t ∧ EndsPlain x.request .ok u t ∧ PartCleared s u ∧ u.queue = s.queue ∧
        u.arb = s.arb ∧ u.slot.line = s.slot.line ∧ u.refresh = s.refresh ∧
        u.dma.order = [.c0, .c1, .c2, .c3, .c5, .c6, .c7] ∧
        (∀ c, (¬ OwnsBus s c → (u.chan c).state = .idle) ∧ (OwnsBus s c → (u.chan c).state = .stopping .idle))) ∧
    (flag1 x.request = true → field x.request.addr 0 8 ≠ 0 →
      ∃ t, exec .partReset s = .next t ∧ PartCleared s t ∧
        t.queue = { s.queue with exec := some { x with phase := .active } } ∧ t.slot.line = .asserted ∧
        t.slot.cycle = none ∧ t.slot.pulse = some ⟨field x.request.addr 0 8, field x.request.addr 8 8, 0⟩ ∧
        t.arb.owner = .free ∧ t.refresh.owed = 0 ∧ ∀ c, (t.chan c).state = .idle)

/-! ## Timers that flush and report, FENCE -/

/-- The slot clock of the settings entry is applied while the bus has no owner, and not before. The master hold meter's limit reports LONG
once in a tenure, with the address first owed; the staging age limit closes the open run of a TO MEMORY channel and demands its staged
bytes. Where the limit is 0, nothing is held or open, or the tenure has reported, nothing changes. -/
def Obligations.ClockHoldAndAgeCommandsAct : Prop :=
  (∀ s : State,
    (s.arb.owner = .free →
      exec .slotClockApply s = .next { s with slot := { s.slot with clock := setClock s.settings } }) ∧
    (s.arb.owner ≠ .free → exec .slotClockApply s = .next s)) ∧
  (∀ s : State,
    (s.arb.owner = .master → setMasterHold s.settings ≠ 0 → s.arb.longReported = false →
      ∃ t f, exec .masterHoldLimit s = .next t ∧
        t = { s with
          arb := { s.arb with longReported := true, meter := max s.arb.meter (setMasterHold s.settings) }
          master := { s.master with owedFault := some f } } ∧
        f.long = true ∧
        (∀ g, s.master.owedFault = some g →
          f.ready = g.ready ∧ f.hostError = g.hostError ∧ f.addr = g.addr ∧ f.causes = g.causes) ∧
        (s.master.owedFault = none →
          f.ready = false ∧ f.hostError = false ∧ f.addr = s.arb.lastMaster.getD 0 ∧ f.causes = [])) ∧
    (s.arb.owner ≠ .master ∨ setMasterHold s.settings = 0 ∨ s.arb.longReported = true →
      exec .masterHoldLimit s = .next s)) ∧
  (∀ (s : State) (c : Chan),
    (∀ r, setAgeLimit s.settings ≠ 0 → (s.stage c).opened = some r → r.bytes ≠ [] → (s.chan c).dir = .toMemory →
      (s.chan c).mode ≠ .master →
      exec (.stagingAgeLimit c) s = .next { s with
        staging := s.staging.put c { s.stage c with
          opened := none, marks := (s.stage c).marks ++ [stagedCount c s] }
        order := s.order ++ [.write (.run c) r.hostFirst r.bytes] }) ∧
    (setAgeLimit s.settings = 0 ∨ (s.stage c).opened = none → exec (.stagingAgeLimit c) s = .next s))

/-- The channels a request marks in bits 0 to 7 of its address word. -/
def Sys2Proof.Machine.named (r : Record) (c : Chan) : Bool := r.addr.getLsbD c.num

/-- A mark names no channel: bit 4, or a bit above 7. -/
def Sys2Proof.Machine.namesNoChannel (r : Record) : Prop := r.addr.getLsbD 4 = true ∨ 256 ≤ r.addr.toNat

/-- The host write of the open run that a FENCE closes on a channel. -/
def Sys2Proof.Machine.closedRun (r : Record) (s : State) (c : Chan) : List OrderItem :=
  match (s.stage c).opened with
  | some run => if named r c && stagesToMemory (s.chan c) then [.write (.run c) run.hostFirst run.bytes] else []
  | none => []

/-- `ws` are host writes of the master access port, and take exactly the entries `us`, in their order. -/
def Sys2Proof.Machine.PortWrites (ws : List OrderItem) (us : List MasterEntry) : Prop :=
  ∃ gs : List (List MasterEntry), gs.flatten = us ∧
    ws = gs.map (fun g => .write (.master g.length) (match g with
      | e :: _ => e.host
      | [] => 0) (g.flatMap MasterEntry.bytes)) ∧ ∀ g, g ∈ gs → g ≠ []

/-- FENCE covers the staged bytes of the TO MEMORY channels it names, and the entries of the master buffer where its flag or a named MASTER
channel asks for them. It closes the open run of each such channel, and the run's write takes its place at the tail of the order of host
writes, channel by channel; behind them every entry of the buffer not yet decided is decided, in buffer order, and a drain mark covers the
buffer. With nothing to wait for it ends OK with the bytes covered, and else stays in flight waiting for as many bytes and entries. A mark
that names no channel is BAD REQUEST. -/
def Obligations.FenceCoversAndWaits : Prop :=
  ∀ (s : State) (x : Exec) (m : Bool) (cover : Chan → Nat) (n : Nat) (ds us : List MasterEntry), JustTaken s x →
    s.master.buffer = ds ++ us → (∀ e, e ∈ ds → e.decided = true) → (∀ e, e ∈ us → e.decided = false) → x.request.kind = .fence →
    (m = true ↔ flag1 x.request = true ∨ ∃ c, named x.request c = true ∧ (s.chan c).mode = .master) →
    (∀ c, cover c = if named x.request c ∧ (s.chan c).dir = .toMemory ∧ (s.chan c).mode ≠ .master then stagedCount c s else 0) →
    n = cover .c0 + cover .c1 + cover .c2 + cover .c3 + cover .c5 + cover .c6 + cover .c7 +
      (if m then (s.master.buffer.map (fun e => e.bytes.length)).sum else 0) →
    (namesNoChannel x.request → ∃ t, exec .fence s = .next t ∧ EndsPlain x.request .badRequest s t) ∧
    (¬ namesNoChannel x.request →
      ∃ u t, exec .fence s = .next t ∧ Within { staging := true, order := true, master := true } s u ∧
        (∀ c, named x.request c = true → (s.chan c).dir = .toMemory → (s.chan c).mode ≠ .master → (u.stage c).opened = none) ∧
        (∀ c, named x.request c = false → u.stage c = s.stage c) ∧ (m = false → u.master = s.master) ∧
        (∀ c, named x.request c = true → stagesToMemory (s.chan c) = true →
          (u.stage c).marks = (s.stage c).marks ++ (if stagedCount c s = 0 then [] else [stagedCount c s])) ∧
        (∃ ws, u.order = s.order ++ Chan.all.flatMap (closedRun x.request s) ++ ws ∧ (m = false → ws = []) ∧
          (m = true → PortWrites ws us)) ∧
        (m = true → s.master.buffer = [] → u.master = s.master) ∧
        (m = true → s.master.buffer ≠ [] → u.master = { s.master with
          buffer := ds ++ us.map MasterEntry.decide, drains := s.master.drains ++ [s.master.buffer.length] }) ∧
        ((∀ c, cover c = 0) → (m = true → s.master.buffer = []) → Ends x.request .ok n zeros8 u t) ∧
        ((∃ c, cover c ≠ 0) ∨ (m = true ∧ s.master.buffer ≠ []) →
          t = { u with queue := { s.queue with exec := some { x with
            phase := .active
            work := .fence n
              { chans := ⟨cover .c0, cover .c1, cover .c2, cover .c3, cover .c5, cover .c6, cover .c7⟩
                master := if m then s.master.buffer.length else 0 } } } }))

/-! ## DMA channels -/

/-- The legacy address of a unit: a byte channel's page and address, a word channel's even page and doubled address. It is even on a word
channel, the low bit of the page does not matter there, and it lies within 24 bits, in the 64 KiB or 128 KiB block the page names. -/
def Obligations.LegacyAddressOfAUnit : Prop :=
  ∀ (c : Chan) (p : BitVec 8) (a : BitVec 16),
    (c ∈ [.c0, .c1, .c2, .c3] → c.unit = 1 ∧ legacyAddr c p a = p.toNat * 65536 + a.toNat ∧
      legacyAddr c p a / 65536 = p.toNat) ∧
    (c ∈ [.c5, .c6, .c7] → c.unit = 2 ∧
      legacyAddr c p a = (p.toNat - p.toNat % 2) * 65536 + 2 * a.toNat ∧ legacyAddr c p a % 2 = 0 ∧
      legacyAddr c (p ^^^ 1) a = legacyAddr c p a ∧ legacyAddr c p a / 131072 = p.toNat / 2) ∧
    legacyAddr c p a < 2 ^ 24 ∧ legacyAddr .c5 0x13 0x8000 = 0x130000

/-- The coded fields of a mode word hold listed values: direction, burst threshold, prefetch limit. -/
def Sys2Proof.Machine.modeWordListed (w : Word) : Prop :=
  field w 2 2 ≠ 3 ∧ field w 8 3 ≤ 4 ∧ field w 16 9 % 16 = 0 ∧ 16 ≤ field w 16 9 ∧ field w 16 9 ≤ 256

/-- The page, address and count of a record carry no bit above them. -/
def Sys2Proof.Machine.blockListed (r : Record) : Prop := r.value.toNat < 2 ^ 24 ∧ r.mask.toNat < 2 ^ 16

/-- The next block that a record carries. -/
def Sys2Proof.Machine.carriedBlock (r : Record) : Block :=
  ⟨r.value.extractLsb' 16 8, r.value.extractLsb' 0 16, r.mask.extractLsb' 0 16⟩

/-- CHANNEL PROGRAM: BAD REQUEST for a number that names no channel or a field that is not listed, BUSY for a channel not IDLE or DONE, and
else the whole record is loaded: the programmed fields, current address and count from the base, masked, IDLE, every flag clear, and the
prefetch cursor set. -/
def Obligations.ChannelProgramLoadsTheRecord : Prop :=
  ∀ (s : State) (r : Record), takenRecord s = some r → r.kind = .channelProgram →
    ((Chan.ofNum r.sub.toNat = none ∨ ¬ modeWordListed r.addr ∨ ¬ blockListed r) →
      ∃ t, exec .channelProgram s = .next t ∧ EndsPlain r .badRequest s t) ∧
    (∀ c, Chan.ofNum r.sub.toNat = some c → modeWordListed r.addr → blockListed r →
      ((s.chan c).state ≠ .idle → (s.chan c).state ≠ .finished →
        ∃ t, exec .channelProgram s = .next t ∧ EndsPlain r .busy s t) ∧
      ((s.chan c).state = .idle ∨ (s.chan c).state = .finished →
        ∃ t, exec .channelProgram s = .next t ∧
          EndsPlain r .ok
            { s with
              dma := { s.dma with
               chans := s.dma.chans.put c
                { mode := match field r.addr 0 2 with
                    | 0 => .single
                    | 1 => .demand
                    | 2 => .block
                    | _ => .master
                  dir := match field r.addr 2 2 with
                    | 0 => .toMemory
                    | 1 => .fromMemory
                    | _ => .verify
                  decrement := r.addr.getLsbD 4, autoReload := r.addr.getLsbD 5, quiet := r.addr.getLsbD 6
                  stopOnFault := r.addr.getLsbD 7, threshold := 8 * 2 ^ field r.addr 8 3, limit := field r.addr 16 9
                  page := (carriedBlock r).page, baseAddr := (carriedBlock r).addr, baseCount := (carriedBlock r).count
                  curAddr := (carriedBlock r).addr, curCount := (carriedBlock r).count, nextBlock := none, mask := true
                  soft := false, blockRun := false, tcFlag := false, tcOwed := 0, nextTaken := false, faults := 0
                  firstFault := 0, owedFaults := 0, owedAddr := 0, faultCauses := [], state := .idle } }
              staging := s.staging.put c { s.stage c with
                chunks := []
                cursor := ⟨(carriedBlock r).page, (carriedBlock r).addr, (carriedBlock r).count, .reading, .no⟩ } } t))

/-- CHANNEL NEXT: BAD REQUEST for a bad number, field or a MASTER channel, COLLISION where a next block is held, and else the block is held
and nothing else of the record moves but its placing; the cursor of a FROM MEMORY channel at its end takes the block up, and a cursor that
has passed into a reload gives that pass up for it. -/
def Obligations.ChannelNextHoldsABlock : Prop :=
  ∀ (s : State) (r : Record), takenRecord s = some r → r.kind = .channelNext →
    ((Chan.ofNum r.sub.toNat = none ∨ ¬ blockListed r) →
      ∃ t, exec .channelNext s = .next t ∧ EndsPlain r .badRequest s t) ∧
    (∀ c, Chan.ofNum r.sub.toNat = some c → blockListed r →
      ((s.chan c).mode = .master → ∃ t, exec .channelNext s = .next t ∧ EndsPlain r .badRequest s t) ∧
      ((s.chan c).mode ≠ .master → (s.chan c).nextBlock ≠ none →
        ∃ t, exec .channelNext s = .next t ∧ EndsPlain r .collision s t) ∧
      ((s.chan c).mode ≠ .master → (s.chan c).nextBlock = none →
        ∃ u t, exec .channelNext s = .next t ∧ EndsPlain r .ok u t ∧ Within { dma := true, staging := true } s u ∧
          u.chan c = { s.chan c with nextBlock := some (carriedBlock r), state := (u.chan c).state } ∧
          (∀ d, d ≠ c → u.chan d = s.chan d ∧ u.stage d = s.stage d) ∧ u.dma.order = s.dma.order ∧
          ((s.chan c).state.placeable = false → (u.chan c).state = (s.chan c).state) ∧
          ((s.chan c).dir ≠ .fromMemory → u.staging = s.staging) ∧
          ((s.chan c).dir = .fromMemory →
            (((s.stage c).cursor.passed = .no ∧ (s.stage c).cursor.state = .atEnd) ∨ (s.stage c).cursor.passed = .reload →
              (u.stage c).cursor =
                ⟨(carriedBlock r).page, (carriedBlock r).addr, (carriedBlock r).count, .reading, .next⟩) ∧
            ((s.stage c).cursor.passed = .reload →
              (u.stage c).chunks = (s.stage c).chunks.filter (fun k => !k.beyond)) ∧
            (((s.stage c).cursor.passed = .no ∧ (s.stage c).cursor.state ≠ .atEnd) ∨ (s.stage c).cursor.passed = .next →
              u.stage c = s.stage c))))

/-- CHANNEL MASK set: a channel at rest is left alone; one that waits goes to IDLE, with its prefetched bytes discarded where it is FROM
MEMORY, or, with staged TO MEMORY bytes, to STOPPING behind a flush; one that owns the bus goes to STOPPING. The request ends OK when every
channel named is at rest, and else stays in flight for them. Channels not named are untouched. -/
def Obligations.ChannelMaskSetStopsChannels : Prop :=
  ∀ (s : State) (x : Exec), JustTaken s x → x.request.kind = .channelMask → flag1 x.request = true →
    (namesNoChannel x.request → ∃ t, exec .channelMaskSet s = .next t ∧ EndsPlain x.request .badRequest s t) ∧
    (¬ namesNoChannel x.request →
      ∃ u t, exec .channelMaskSet s = .next t ∧ Within { dma := true, staging := true, order := true } s u ∧
        (∀ c, named x.request c = false → u.chan c = s.chan c ∧ u.stage c = s.stage c) ∧
        (∀ c, named x.request c = true →
          ((s.chan c).state.masked = true → u.chan c = s.chan c ∧ u.stage c = s.stage c) ∧
          ((s.chan c).state = .active ∨ (s.chan c).state = .mastered →
            u.chan c = { s.chan c with mask := true, soft := false, blockRun := false, state := .stopping .idle } ∧
            u.stage c = s.stage c) ∧
          ((s.chan c).state.placeable = true → s.arb.owner ≠ .dma c → s.arb.masterChan ≠ some c →
            (stagesToMemory (s.chan c) = true → stagedCount c s = 0 →
              u.chan c = { s.chan c with mask := true, soft := false, blockRun := false, state := .idle } ∧
              (u.stage c).opened = none ∧ (u.stage c).marks = (s.stage c).marks) ∧
            (stagesToMemory (s.chan c) = true → stagedCount c s ≠ 0 →
              u.chan c = { s.chan c with mask := true, soft := false, blockRun := false, state := .stopping .idle } ∧
              (u.stage c).opened = none ∧ (u.stage c).marks = (s.stage c).marks ++ [stagedCount c s]) ∧
            (stagesToMemory (s.chan c) = false →
              u.chan c = { s.chan c with mask := true, soft := false, blockRun := false, state := .idle } ∧
              ((s.chan c).dir = .fromMemory → (s.chan c).mode ≠ .master → (u.stage c).chunks = [])))) ∧
        ((∀ c, named x.request c = true → (u.chan c).state = .idle ∨ (u.chan c).state = .finished) →
          EndsPlain x.request .ok u t) ∧
        ((∃ c, named x.request c = true ∧ (u.chan c).state ≠ .idle ∧ (u.chan c).state ≠ .finished) →
          ∃ w, t = { u with queue := { s.queue with exec := some { x with phase := .active, work := .maskSet w } } } ∧
            ∀ c, w.get c = named x.request c))

/-- CHANNEL MASK clear, with the bus owned so that no grant follows: an IDLE channel resumes from the counts it holds and a DONE one from its
next block or base, placed WAITING without a request, and else READY where staging can serve its next unit and STALLED where not; any other
but a STOPPING one is left alone. The request ends OK where every channel named is unmasked, and a STOPPING one keeps it waiting: when its
stopping ends it is cleared, and the request ends OK if every channel named is then unmasked, and else stays in flight (a channel masked
again meanwhile is not cleared again: the model's reading, log entry 13). -/
def Obligations.ChannelMaskClearStartsChannels : Prop :=
  ∀ (s : State) (x : Exec), JustTaken s x → x.request.kind = .channelMask → flag1 x.request = false →
    (namesNoChannel x.request → ∃ t, exec .channelMaskClear s = .next t ∧ EndsPlain x.request .badRequest s t) ∧
    (¬ namesNoChannel x.request → s.arb.owner ≠ .free → MaskAgrees s →
      ∃ u t, exec .channelMaskClear s = .next t ∧ Within { dma := true, staging := true } s u ∧
        (∀ c, named x.request c = false ∨ ((s.chan c).state ≠ .idle ∧ (s.chan c).state ≠ .finished) →
          u.chan c = s.chan c ∧ u.stage c = s.stage c) ∧
        (∀ c, named x.request c = true →
          ((s.chan c).state = .idle ∨ (s.chan c).state = .finished →
            (u.chan c).mask = false ∧ (u.chan c).state.placeable = true ∧
            (u.chan c).state = (if requestActive c s then (if canServe c u then .ready else .stalled) else .waiting) ∧
            ((s.chan c).dir = .fromMemory → (u.stage c).chunks = [] ∧
              (u.stage c).cursor = ⟨(u.chan c).page, (u.chan c).curAddr, (u.chan c).curCount, .reading, .no⟩)) ∧
          ((s.chan c).state = .idle → (u.chan c).page = (s.chan c).page ∧ (u.chan c).curAddr = (s.chan c).curAddr ∧
            (u.chan c).curCount = (s.chan c).curCount ∧ (u.chan c).nextBlock = (s.chan c).nextBlock) ∧
          (∀ b, (s.chan c).state = .finished → (s.chan c).nextBlock = some b →
            (u.chan c).page = b.page ∧ (u.chan c).curAddr = b.addr ∧ (u.chan c).curCount = b.count ∧
            (u.chan c).baseAddr = b.addr ∧ (u.chan c).baseCount = b.count ∧ (u.chan c).nextBlock = none) ∧
          ((s.chan c).state = .finished → (s.chan c).nextBlock = none →
            (u.chan c).page = (s.chan c).page ∧ (u.chan c).curAddr = (s.chan c).baseAddr ∧
            (u.chan c).curCount = (s.chan c).baseCount)) ∧
        ((∀ c d, named x.request c = true → (s.chan c).state ≠ .stopping d) → EndsPlain x.request .ok u t) ∧
        ((∃ c d, named x.request c = true ∧ (s.chan c).state = .stopping d) →
          ∃ m w, t = { u with queue := { s.queue with exec := some { x with phase := .active, work := .maskClear m w } } } ∧
            ∀ c, m.get c = named x.request c ∧ w.get c = (named x.request c && (s.chan c).state.isStopping))) ∧
    (∀ (m w : PerChan Bool) (c : Chan) (d : Dest) (v : State) (e : Exec), v.queue.exec = some e → e.work = .maskClear m w →
      w.get c = true → m.get c = true → (v.chan c).state = .stopping d → v.arb.owner ≠ .dma c → v.arb.masterChan ≠ some c →
      (stagesToMemory (v.chan c) = true → stagedCount c v = 0) →
      ((∀ b, b ≠ c → m.get b = true → (v.chan b).mask = false) →
        ∃ u, EndsPlain e.request .ok u (endStopping c v) ∧ (u.chan c).mask = false ∧ (u.chan c).state.placeable = true) ∧
      ((∃ b, b ≠ c ∧ m.get b = true ∧ (v.chan b).mask = true) →
        ((endStopping c v).chan c).mask = false ∧ ((endStopping c v).chan c).state.placeable = true ∧
          (endStopping c v).queue = { v.queue with exec := some { e with work := .maskClear m (w.put c false) } }))

/-- CHANNEL REQUEST sets or clears the soft request of a channel that is not in MASTER mode, and an unmasked channel that does not own the
bus is placed: WAITING without a request, else READY or STALLED; a CHANNEL FAULT this makes owed carries the request's number (the model's,
log entry 41). CHANNEL STATUS answers the channel as it stands, and clears the TC flag if
asked. Each is BAD REQUEST for a number that names no channel. The bus is owned, so that no grant follows. -/
def Obligations.ChannelRequestAndStatus : Prop :=
  (∀ (on : Bool) (i : Instr) (s : State) (r : Record),
    i = (if on then .channelRequestSet else .channelRequestClear) → takenRecord s = some r → r.kind = .channelRequest →
    flag1 r = on →
    (Chan.ofNum r.sub.toNat = none → ∃ t, exec i s = .next t ∧ EndsPlain r .badRequest s t) ∧
    (∀ c, Chan.ofNum r.sub.toNat = some c → (s.chan c).mode = .master →
      ∃ t, exec i s = .next t ∧ EndsPlain r .badRequest s t) ∧
    (∀ c, Chan.ofNum r.sub.toNat = some c → (s.chan c).mode ≠ .master → s.arb.owner ≠ .free →
      ∃ u t, exec i s = .next t ∧ EndsPlain r .ok u t ∧ Within { dma := true } s u ∧ (u.chan c).soft = on ∧
        (∀ d, d ≠ c → u.chan d = s.chan d) ∧ (u.chan c).mask = (s.chan c).mask ∧
        ((s.chan c).state.placeable = false → u.chan c = { s.chan c with soft := on }) ∧
        ((s.chan c).state.placeable = true →
          (u.chan c).state =
            if (s.pins.dreq.get c ∧ s.slot.line ≠ .asserted) ∨ on ∨ ((s.chan c).mode = .block ∧ (s.chan c).blockRun) then
              (if canServe c s then .ready else .stalled)
            else .waiting) ∧
        (u.chan c).faultCauses = (s.chan c).faultCauses ++
          (if (u.chan c).owedFaults = (s.chan c).owedFaults then [] else [s.queue.number]))) ∧
  (∀ (s : State) (r : Record), takenRecord s = some r → r.kind = .channelStatus →
    (Chan.ofNum r.sub.toNat = none → ∃ t, exec .channelStatus s = .next t ∧ EndsPlain r .badRequest s t) ∧
    (∀ c b0 b1, Chan.ofNum r.sub.toNat = some c →
      b0 = (match (s.chan c).state with
        | .idle => 0x00
        | .finished => 0x01
        | .waiting => 0x02
        | .ready => 0x03
        | .active => 0x04
        | .stalled => 0x05
        | .mastered => 0x06
        | .stopping .idle => 0x07
        | .stopping .finished => 0x17) →
      b1 = (if (s.chan c).mask then 1 else 0) + (if (s.chan c).soft then 2 else 0) +
        (if s.pins.dreq.get c then 4 else 0) + (if (s.chan c).blockRun then 8 else 0) +
        (if (s.chan c).nextBlock.isSome then 16 else 0) + (if (s.chan c).tcFlag then 32 else 0) →
      ∃ t, exec .channelStatus s = .next t ∧
        Ends r .ok (stagedCount c s)
          [b0, BitVec.ofNat 8 b1, (s.chan c).page, (s.chan c).faults.setWidth 8,
           (s.chan c).curAddr.extractLsb' 0 8, (s.chan c).curAddr.extractLsb' 8 8,
           (s.chan c).curCount.extractLsb' 0 8, (s.chan c).curCount.extractLsb' 8 8]
          { s with dma := { s.dma with
           chans := s.dma.chans.put c
            { s.chan c with tcFlag := (s.chan c).tcFlag && !flag1 r } } } t))

/-- A card's request line rises or falls: an unmasked channel that does not own the bus is placed by the new level; the fall of the line
whose channel holds a master tenure ends it, with a held cycle given up as at the ready limit. A line already at the level changes nothing. -/
def Obligations.RequestLinesPlaceChannels : Prop :=
  (∀ (s : State) (c : Chan),
    (s.pins.dreq.get c = true → exec (.dmaRequestRise c) s = .next s) ∧
    (s.pins.dreq.get c = false → exec (.dmaRequestFall c) s = .next s) ∧
    (s.pins.dreq.get c = false → s.arb.owner ≠ .free →
      ∃ t, exec (.dmaRequestRise c) s = .next t ∧ Within { pins := true, dma := true } s t ∧
        t.pins = { s.pins with dreq := s.pins.dreq.put c true } ∧ (∀ d, d ≠ c → t.chan d = s.chan d) ∧
        ((s.chan c).state.placeable = false → t.chan c = s.chan c) ∧
        ((s.chan c).state.placeable = true → s.slot.line ≠ .asserted →
          (t.chan c).state = if canServe c s then .ready else .stalled)) ∧
    (s.pins.dreq.get c = true → s.arb.owner ≠ .free → (s.arb.owner ≠ .master ∨ s.arb.masterChan ≠ some c) →
      ∃ t, exec (.dmaRequestFall c) s = .next t ∧ Within { pins := true, dma := true } s t ∧
        t.pins = { s.pins with dreq := s.pins.dreq.put c false } ∧ (∀ d, d ≠ c → t.chan d = s.chan d) ∧
        ((s.chan c).state.placeable = true → (s.chan c).soft = false → (s.chan c).blockRun = false →
          (t.chan c).state = .waiting))) ∧
  (∀ (s : State) (c : Chan), s.pins.dreq.get c = true → s.arb.owner = .master → s.arb.masterChan = some c →
    (s.chan c).state = .mastered → (s.chan c).mode = .master →
    ∃ t, exec (.dmaRequestFall c) s = .next t ∧ t.pins = { s.pins with dreq := s.pins.dreq.put c false } ∧
      (t.arb.owner = .master → t.arb.masterChan ≠ some c) ∧ (t.chan c).state = .waiting ∧
      t.master.stretched = none ∧ t.master.buffer = s.master.buffer ∧ t.staging = s.staging ∧ t.order = s.order ∧
      (∀ x, s.master.stretched = some x → ∃ f, t.master.owedFault = some f ∧ f.ready = true))

/-! ## Memory map and host mover -/

/-- A lookup is decided by the lowest-numbered valid entry that contains the address: its host address where its access includes the one
needed, DENIED where not, and MISS where no valid entry contains it; the entry and the offset are the same across a legacy frame. -/
def Obligations.LookupIsDecidedByTheLowestEntry : Prop :=
  ∀ (m : Vector Entry 32) (l : Nat) (need : Need),
    ((∀ e, e ∈ m.toList → e.valid = true → mapContains e l = false) → lookupMap m l need = .miss) ∧
    (∀ i e, m.toList[i]? = some e → e.valid = true → mapContains e l = true →
      (∀ j e', j < i → m.toList[j]? = some e' → e'.valid = true → mapContains e' l = false) →
      (mapAccess e = 2 ∨ (need = .read ∧ mapAccess e = 0) ∨ (need = .write ∧ mapAccess e = 1) →
        lookupMap m l need = .found i (mapG e * 4096 + (l - mapF e * 4096))) ∧
      (mapAccess e ≠ 2 → (need = .read → mapAccess e ≠ 0) → (need = .write → mapAccess e ≠ 1) →
        lookupMap m l need = .denied)) ∧
    (∀ l', l' / 4096 = l / 4096 →
      (lookupMap m l need = .miss → lookupMap m l' need = .miss) ∧
      (lookupMap m l need = .denied → lookupMap m l' need = .denied) ∧
      (∀ i h, lookupMap m l need = .found i h → ∃ h', lookupMap m l' need = .found i h' ∧ h' + l = h + l'))

/-- Where a place stands among those of one event: a channel's runs by its number, and the master port's behind them. -/
def Sys2Proof.Machine.placeRank : OrderItem → Nat
  | .write (.run c) _ _ => c.num
  | _ => 8

/-- The places stand channel by channel, with the master port's behind them. -/
def Sys2Proof.Machine.InChannelOrder (o : List OrderItem) : Prop := o.Pairwise (fun a b => placeRank a ≤ placeRank b)

/-- The issue of the write at the head of the order: host memory holds its bytes at successive addresses and every other byte is as it was,
or, for an MSI, one more has reached the host; the rest of the order keeps its places, a staged run leaves its channel's count, and a
master write leaves its buffer. What the event decides stands behind the rest, channel by channel and then the master port's. With no write in
the order nothing changes. -/
def Obligations.IssuedWriteReachesHostMemory : Prop :=
  (∀ (s : State) (src : WriteSource) (a : Nat) (bs : List Byte) (rest : List OrderItem),
    s.order = .write src a bs :: rest → memWf s.host.mem = true →
    ∃ t, exec .hostWriteIssue s = .next t ∧
      Within { host := true, order := true, staging := true, dma := true, queue := true, stream := true, master := true,
               irq := true, arb := true, slot := true } s t ∧
      (∀ n, src ≠ .msi → readByte t.host.mem n =
        if a ≤ n ∧ n < a + bs.length then bs[n - a]? else readByte s.host.mem n) ∧
      (src = .msi → t.host = { s.host with msis := s.host.msis + 1 }) ∧
      (src ≠ .msi → t.host.msis = s.host.msis) ∧ memWf t.host.mem = true ∧
      (∃ new, t.order = sendReads rest ++ new ∧ InChannelOrder new) ∧
      (∀ c, src = .run c → (s.chan c).dir = .toMemory → stagedCount c t + bs.length = stagedCount c s) ∧
      (∀ n, src = .master n → s.master.stretched = none → t.master.buffer.length = s.master.buffer.length - n)) ∧
  (∀ s : State, (∀ i, i ∈ s.order → i.isRead = true) → exec .hostWriteIssue s = .next s)

/-- The staged byte at place `i` of a read of `n` bytes whose first unit lies at `l`: bytes come lowest host address first and stand in unit
order, so an INCREMENT channel keeps them as they come and a DECREMENT one turns its units round, the low byte of a unit first. -/
def Sys2Proof.Machine.placedByte (c : Chan) (decrement : Bool) (l n : Nat) (bs : List Byte) (i : Nat) : Host.Cell :=
  if decrement then
    (if c.isWord then (l - 2 * (i / 2) + i % 2, bs.getD (n - 2 * (i / 2 + 1) + i % 2) 0) else (l - i, bs.getD (n - 1 - i) 0))
  else (l + i, bs.getD i 0)

/-- The prefetcher of an unmasked FROM MEMORY channel with a READING cursor and room: a read at the cursor, as long as the threshold, the
limit, the ends of the frame and of the entry and the units left allow, takes its place in the order and the cursor steps over it; where
the map has no entry for it, FFh is staged and MISS recorded instead. Where it is not READING nothing changes. -/
def Obligations.PrefetchReadIsFormed : Prop :=
  ∀ (s : State) (c : Chan) (l n : Nat), (s.chan c).dir = .fromMemory → (s.chan c).mode ≠ .master →
    (s.chan c).state ∈ [.waiting, .ready, .active, .stalled] →
    l = legacyAddr c (s.stage c).cursor.page (s.stage c).cursor.addr → 1 ≤ n →
    n + stagedCount c s + outstandingCount c s ≤ (s.chan c).limit →
    ((s.stage c).cursor.state ≠ .reading → exec (.prefetchReadForm c) s = .next s) ∧
    ((s.stage c).cursor.state = .reading →
      (∀ i h e, lookupMap s.map l .read = .found i h → s.map.toList[i]? = some e →
        n = min (min (s.chan c).threshold (s.chan c).limit)
          (min (min (if (s.chan c).decrement then l % 4096 + c.unit else 4096 - l % 4096)
            (((s.stage c).cursor.count.toNat + 1) * c.unit))
            (if (s.chan c).decrement then l - mapF e * 4096 + c.unit else (mapF e + mapN e) * 4096 - l)) →
        ∃ t, exec (.prefetchReadForm c) s = .next t ∧ Within { staging := true, order := true } s t ∧
          (∀ d, d ≠ c → t.stage d = s.stage d) ∧ (t.stage c).opened = (s.stage c).opened ∧
          (t.stage c).readId = (s.stage c).readId + 1 ∧
          (t.stage c).chunks = (s.stage c).chunks ++
            [{ id := (s.stage c).readId, addr := l, len := n, data := none
               host := if (s.chan c).decrement then h + c.unit - n else h
               beyond := (s.stage c).cursor.passed ≠ .no }] ∧
          (s.order = [] → t.order = []) ∧
          (∀ src a bs rest, s.order = .write src a bs :: rest →
            t.order = s.order ++ [.read (.prefetch c (s.stage c).readId)]) ∧
          (n / c.unit ≠ (s.stage c).cursor.count.toNat + 1 →
            (t.stage c).cursor = { (s.stage c).cursor with
              addr := if (s.chan c).decrement then (s.stage c).cursor.addr - BitVec.ofNat 16 (n / c.unit)
                      else (s.stage c).cursor.addr + BitVec.ofNat 16 (n / c.unit)
              count := (s.stage c).cursor.count - BitVec.ofNat 16 (n / c.unit) }) ∧
          (n / c.unit = (s.stage c).cursor.count.toNat + 1 →
            ((s.stage c).cursor.passed ≠ .no → (t.stage c).cursor.state = .waitingAhead) ∧
            (∀ b, (s.stage c).cursor.passed = .no → (s.chan c).nextBlock = some b →
              (t.stage c).cursor = ⟨b.page, b.addr, b.count, .reading, .next⟩) ∧
            ((s.stage c).cursor.passed = .no → (s.chan c).nextBlock = none → (s.chan c).autoReload = true →
              (t.stage c).cursor =
                ⟨(s.stage c).cursor.page, (s.chan c).baseAddr, (s.chan c).baseCount, .reading, .reload⟩) ∧
            ((s.stage c).cursor.passed = .no → (s.chan c).nextBlock = none → (s.chan c).autoReload = false →
              (t.stage c).cursor.state = .atEnd))) ∧
      (lookupMap s.map l .read = .miss → (s.chan c).stopOnFault = false →
        n = min (min (s.chan c).threshold (s.chan c).limit)
          (min (if (s.chan c).decrement then l % 4096 + c.unit else 4096 - l % 4096)
            (((s.stage c).cursor.count.toNat + 1) * c.unit)) → n % c.unit = 0 →
        ∃ t k, exec (.prefetchReadForm c) s = .next t ∧ t.order = s.order ∧
          (t.stage c).chunks = (s.stage c).chunks ++ [k] ∧ k.addr = l ∧
          k.data = some ((List.range n).map (placedByte c (s.chan c).decrement l n (List.replicate n 0xFF))) ∧
          (t.chan c).faults &&& 0x04 = 0x04 ∧ (t.chan c).owedFaults &&& 0x04 = 0x04 ∧
          ((s.chan c).faults = 0 → (s.chan c).firstFault = 0 → (t.chan c).firstFault = BitVec.ofNat 24 l)))

/-- A prefetch read that is outstanding and has been sent completes: its bytes are staged at their legacy addresses in unit order, or, on an
error, FFh with HOST ERROR recorded at its first unit. One that is no longer held does nothing. -/
def Obligations.PrefetchReadCompletes : Prop :=
  ∀ (s : State) (c : Chan) (id : Nat),
    ((∀ k, k ∈ (s.stage c).chunks → k.id ≠ id) → ∀ r, exec (.prefetchReadComplete c id r) s = .next s) ∧
    (∀ pre k post, (s.stage c).chunks = pre ++ k :: post → k.id = id → k.data = none → k.len % c.unit = 0 →
      (∀ k', k' ∈ pre ++ post → k'.id ≠ id) → OrderItem.read (.prefetch c id) ∉ s.order →
      (∀ bs : List Byte, bs.length = k.len →
        ∃ t, exec (.prefetchReadComplete c id (.data bs)) s = .next t ∧
          Within { staging := true, dma := true, slot := true, arb := true, queue := true, master := true } s t ∧
          (∀ d, d ≠ c → t.stage d = s.stage d) ∧
          t.stage c = { s.stage c with
            chunks := pre ++ { k with data := some ((List.range k.len).map
              (placedByte c (s.chan c).decrement k.addr k.len bs)) } :: post }) ∧
      ((s.chan c).stopOnFault = false →
        ∃ t, exec (.prefetchReadComplete c id .error) s = .next t ∧
          t.stage c = { s.stage c with
            chunks := pre ++ { k with data := some ((List.range k.len).map
              (placedByte c (s.chan c).decrement k.addr k.len (List.replicate k.len 0xFF))) } :: post } ∧
          (t.chan c).faults &&& 0x10 = 0x10 ∧ (t.chan c).owedFaults &&& 0x10 = 0x10 ∧
          ((s.chan c).faults = 0 → (s.chan c).firstFault = 0 → (t.chan c).firstFault = BitVec.ofNat 24 k.addr)))

/-! ## Bus-master cards -/

/-- The bytes of a master write cycle: two for a word attempt at an even address, else the low byte of what stands on the lines. -/
def Sys2Proof.Machine.cycleBytes (addr : BitVec 24) (wide : Bool) (data : BusWord) : List Byte :=
  if wide ∧ addr.toNat % 2 = 0 then [data.extractLsb' 0 8, data.extractLsb' 8 8] else [data.extractLsb' 0 8]

/-- What a posted write of `bs` at `addr` leaves of the read line: its bytes in the line where it lies in the valid line; else the line keeps. -/
def Sys2Proof.Machine.LineFollows (addr : Nat) (bs : List Byte) (old new : Option ReadLine) : Prop :=
  (old = none → new = none) ∧
  ∀ rl, old = some rl →
    (addr / 32 * 32 ≠ rl.addr → new = some rl) ∧
    (addr / 32 * 32 = rl.addr → rl.bytes.length = 32 →
      ∃ ls, new = some { rl with bytes := ls } ∧ ls.length = 32 ∧
        ∀ j, j < 32 → ls[j]? =
          if addr ≤ rl.addr + j ∧ rl.addr + j < addr + bs.length then bs[rl.addr + j - addr]? else rl.bytes[j]?)

/-- A memory write of the card that holds the bus: unmapped, only its address is noted; denied, HOST ERROR is owed; mapped with room, it is
posted at the tail, and decided at once where the buffer is empty and not yet where writes of the port wait; its bytes enter the valid read
line that they lie in, and an outstanding fill of their line is marked to be ignored; mapped with the buffer full, it is held with
its ready timer from zero. A card without the bus, or with a cycle held, drives none. -/
def Obligations.MasterWriteIsPostedOrHeld : Prop :=
  ∀ (s : State) (addr : BitVec 24) (wide : Bool) (data : BusWord),
    (s.arb.owner ≠ .master ∨ s.master.stretched ≠ none → exec (.masterWriteCycle addr wide data) s = .next s) ∧
    (s.arb.owner = .master → s.master.stretched = none →
      (lookupMap s.map addr.toNat .write = .miss →
        exec (.masterWriteCycle addr wide data) s = .next { s with arb := { s.arb with lastMaster := some addr.toNat } }) ∧
      (lookupMap s.map addr.toNat .write = .denied →
        ∃ t f, exec (.masterWriteCycle addr wide data) s = .next t ∧
          t = { s with
            arb := { s.arb with lastMaster := some addr.toNat }, master := { s.master with owedFault := some f } } ∧
          f.hostError = true ∧ (s.master.owedFault = none → f.addr = addr.toNat ∧ f.ready = false ∧ f.long = false)) ∧
      (∀ i h, lookupMap s.map addr.toNat .write = .found i h →
        (16 ≤ s.master.buffer.length →
          exec (.masterWriteCycle addr wide data) s = .next { s with
            arb := { s.arb with lastMaster := some addr.toNat }
            master := { s.master with
             stretched := some
              ⟨.write (cycleBytes addr wide data), addr.toNat, i, h, ⟨setReadyLimit s.settings, 0⟩⟩ } }) ∧
        ((s.master.buffer = [] ∨ (s.master.buffer.length < 16 ∧ ∃ e, e ∈ s.master.buffer ∧ e.decided = true)) →
          ∃ rl, LineFollows addr.toNat (cycleBytes addr wide data) s.master.readLine rl ∧
            exec (.masterWriteCycle addr wide data) s = .next { s with
              arb := { s.arb with lastMaster := some addr.toNat }
              order := s.order ++
                (if s.master.buffer = [] then [.write (.master 1) h (cycleBytes addr wide data)] else [])
              master := { s.master with
                buffer := s.master.buffer ++
                  [⟨addr.toNat, cycleBytes addr wide data, i, h, decide (s.master.buffer = [])⟩]
                readLine := rl
                fill := s.master.fill.map (fun f =>
                  if addr.toNat / 32 * 32 = f.addr then { f with ignored := true } else f) } })))

/-- A memory read of the card that holds the bus: unmapped, only its address is noted; denied, it is given FFh and HOST ERROR is owed; within
the valid read line, it is answered from it; else it is held, with every buffered write decided, and the line given up for a fill of its
32-byte line formed behind those writes, unless a fill is outstanding: one for its line serves it, and any other is ignored. A wide read at
an odd address is one of one byte, the model's reading (log entry 22). -/
def Obligations.MasterReadIsAnsweredOrFills : Prop :=
  ∀ (s : State) (addr : BitVec 24) (wide : Bool) (len : Nat), len = (if wide ∧ addr.toNat % 2 = 0 then 2 else 1) →
    (s.arb.owner ≠ .master ∨ s.master.stretched ≠ none → exec (.masterReadCycle addr wide) s = .next s) ∧
    (s.arb.owner = .master → s.master.stretched = none →
      (lookupMap s.map addr.toNat .read = .miss →
        exec (.masterReadCycle addr wide) s = .next { s with arb := { s.arb with lastMaster := some addr.toNat } }) ∧
      (lookupMap s.map addr.toNat .read = .denied →
        ∃ t f, exec (.masterReadCycle addr wide) s = .next t ∧
          t = { s with
            arb := { s.arb with lastMaster := some addr.toNat }
            master := { s.master with answered := some (List.replicate len 0xFF), owedFault := some f } } ∧
          f.hostError = true) ∧
      (∀ i h, lookupMap s.map addr.toNat .read = .found i h →
        (∀ rl, s.master.readLine = some rl → rl.addr ≤ addr.toNat → addr.toNat + len ≤ rl.addr + 32 →
          exec (.masterReadCycle addr wide) s = .next { s with
            arb := { s.arb with lastMaster := some addr.toNat }
            master := { s.master with answered := some ((rl.bytes.drop (addr.toNat - rl.addr)).take len) } }) ∧
        (∀ ds us, (∀ rl, s.master.readLine = some rl → ¬ (rl.addr ≤ addr.toNat ∧ addr.toNat + len ≤ rl.addr + 32)) →
          s.master.buffer = ds ++ us → (∀ e, e ∈ ds → e.decided = true) → (∀ e, e ∈ us → e.decided = false) →
          ∃ t ws, exec (.masterReadCycle addr wide) s = .next t ∧ PortWrites ws us ∧
            t = { s with
              arb := { s.arb with lastMaster := some addr.toNat }
              order := (if s.master.fill = none then sendReads (s.order ++ ws ++ [.read .fill]) else s.order ++ ws)
              master := { s.master with
                buffer := ds ++ us.map MasterEntry.decide
                readLine := if s.master.fill = none then none else s.master.readLine
                fill := some (match s.master.fill with
                  | none => ⟨addr.toNat / 32 * 32, i, h - addr.toNat % 32, false⟩
                  | some f => if f.addr = addr.toNat / 32 * 32 ∧ f.ignored = false then f else { f with ignored := true })
                stretched := some ⟨.read len (match s.master.fill with
                  | none => false
                  | some f => !(f.addr == addr.toNat / 32 * 32 && !f.ignored)), addr.toNat, i, h,
                  ⟨setReadyLimit s.settings, 0⟩⟩ } }) ∧
        (s.master.readLine = none → s.master.fill = none → s.master.buffer = [] → s.order = [] →
          exec (.masterReadCycle addr wide) s = .next { s with
            arb := { s.arb with lastMaster := some addr.toNat }
            master := { s.master with
              fill := some ⟨addr.toNat / 32 * 32, i, h - addr.toNat % 32, false⟩
              stretched := some ⟨.read len false, addr.toNat, i, h, ⟨setReadyLimit s.settings, 0⟩⟩ } }) ∧
        (∀ f, s.master.readLine = none → s.master.fill = some f → s.master.buffer = [] →
          exec (.masterReadCycle addr wide) s = .next { s with
            arb := { s.arb with lastMaster := some addr.toNat }
            master := { s.master with
              fill := some (if f.addr = addr.toNat / 32 * 32 ∧ f.ignored = false then f else { f with ignored := true })
              stretched := some ⟨.read len (!(f.addr == addr.toNat / 32 * 32 && !f.ignored)), addr.toNat, i, h,
                ⟨setReadyLimit s.settings, 0⟩⟩ } })))

/-- A buffered write carries on where another ends: next address, same entry, next host address in the same host frame. -/
def Sys2Proof.Machine.carriesOn (e e' : MasterEntry) : Prop :=
  e'.addr = e.addr + e.bytes.length ∧ e'.entry = e.entry ∧ e'.host = e.host + e.bytes.length ∧
    e'.host / 4096 = (e.host + e.bytes.length - 1) / 4096

/-- A held write is posted once the buffer has room. The port decides its oldest entries, as many as carry on from one another, as one host
write, when none of its writes waits. A fill's completion makes the read line, answers the read that waits for it, or on an error gives it
FFh and owes HOST ERROR; one to be ignored does neither, and a read that waited to form its own fill forms it, by the lookup of the moment
its cycle was presented, to be ignored where a map write has changed that lookup since: the model's choice (log entry 21). With no such read
held none is formed (log entry 43). -/
def Obligations.MasterPortMovesOn : Prop :=
  (∀ s : State,
    (s.master.stretched = none ∨ 16 ≤ s.master.buffer.length → exec .masterHeldWritePost s = .next s) ∧
    (∀ bs a i h tm, s.master.stretched = some ⟨.write bs, a, i, h, tm⟩ → s.master.buffer.length < 16 →
      (∃ e, e ∈ s.master.buffer ∧ e.decided = true) →
      ∃ t, exec .masterHeldWritePost s = .next t ∧ Within { master := true } s t ∧ t.master.stretched = none ∧
        t.master.buffer = s.master.buffer ++ [⟨a, bs, i, h, false⟩])) ∧
  (∀ s : State,
    (s.master.buffer = [] ∨ (∃ e, e ∈ s.master.buffer ∧ e.decided = true) → exec .masterWriteDecide s = .next s) ∧
    (∀ e es, s.master.buffer = e :: es → (∀ x, x ∈ s.master.buffer → x.decided = false ∧ x.bytes ≠ []) →
      ∃ n t, exec .masterWriteDecide s = .next t ∧ 1 ≤ n ∧ n ≤ s.master.buffer.length ∧
        (∀ j x y, j + 1 < n → s.master.buffer[j]? = some x → s.master.buffer[j + 1]? = some y → carriesOn x y) ∧
        (∀ x y, s.master.buffer[n - 1]? = some x → s.master.buffer[n]? = some y → ¬ carriesOn x y) ∧
        t = { s with
          order := s.order ++ [.write (.master n) e.host ((s.master.buffer.take n).flatMap MasterEntry.bytes)]
          master := { s.master with
            buffer := (s.master.buffer.take n).map (fun x => { x with decided := true }) ++ s.master.buffer.drop n } })) ∧
  (∀ (s : State) (f : Fill), s.master.fill = some f → OrderItem.read .fill ∉ s.order →
    (∀ bs : List Byte, f.ignored = false → bs.length = 32 →
      (s.master.stretched = none →
        exec (.lineFillComplete (.data bs)) s = .next { s with
          master := { s.master with fill := none, readLine := some ⟨f.addr, f.entry, f.host, bs⟩ } }) ∧
      (∀ len a i h tm, s.master.stretched = some ⟨.read len false, a, i, h, tm⟩ → a / 32 * 32 = f.addr →
        a + len ≤ f.addr + 32 →
        exec (.lineFillComplete (.data bs)) s = .next { s with
          master := { s.master with
            fill := none, readLine := some ⟨f.addr, f.entry, f.host, bs⟩, stretched := none
            answered := some ((bs.drop (a - f.addr)).take len) } })) ∧
    (f.ignored = false → ∀ len a i h tm, s.master.stretched = some ⟨.read len false, a, i, h, tm⟩ → a / 32 * 32 = f.addr →
      ∃ t g, exec (.lineFillComplete .error) s = .next t ∧
        t = { s with
          master := { s.master with
            fill := none, stretched := none, answered := some (List.replicate len 0xFF), owedFault := some g } } ∧
        g.hostError = true) ∧
    (f.ignored = true → ∀ r,
      (s.master.stretched = none → exec (.lineFillComplete r) s = .next { s with master := { s.master with fill := none } }) ∧
      (∀ len a i h tm changed, s.master.stretched = some ⟨.read len true, a, i, h, tm⟩ → s.order = [] →
        (changed = true ↔ lookupMap s.map a .read ≠ .found i h) →
        exec (.lineFillComplete r) s = .next { s with
          master := { s.master with
            readLine := none, fill := some ⟨a / 32 * 32, i, h - a % 32, changed⟩
            stretched := some ⟨.read len false, a, i, h, tm⟩ } })))

/-! ## Interrupt lines -/

/-- The blocks that the interrupt unit's own moves may touch: its records, and what a drain touches. -/
abbrev Sys2Proof.Machine.Touch.draining : Touch := { irq := true, staging := true, master := true, order := true }

/-- A candidate that the request in flight has brought about carries the request's number, and any other the causes it had (the model's,
log entry 41). -/
def Sys2Proof.Machine.NewCandidate (s u : State) : Prop :=
  ∀ d, u.irq.delivery = some d →
    (∃ d', s.irq.delivery = some d' ∧ d'.line = d.line ∧ d'.causes = d.causes) ∨
    ((∀ d', s.irq.delivery = some d' → d'.line ≠ d.line) ∧ d.causes = [s.queue.number])

/-- LINE SET writes the line's settings and keeps its service; the pending and overrun marks keep where the trigger is as it was, and start
afresh where it differs (a line set to LEVEL while the slot reset line is ASSERTED stays not pending, the model's reading, log entry 32).
LINE MASK sets or clears the masks marked. Each is BAD REQUEST, with nothing changed, for what names no line or no
listed setting. Eligibility is weighed afresh, which leaves every line record as written. -/
def Obligations.LineSetAndMaskWriteLines : Prop :=
  (∀ (s : State) (r : Record), takenRecord s = some r → r.kind = .lineSet → s.irq.poll = none → s.irq.pollWaiting = false →
    ((Line.ofNum r.sub.toNat = none ∨ 2 ≤ field r.addr 0 2 ∨ (field r.addr 0 2 = 1 ∧ r.addr.getLsbD 3 = true) ∨
        r.addr.getLsbD 20 = true ∨ 2 ^ 24 ≤ r.addr.toNat) →
      ∃ t, exec .lineSet s = .next t ∧ EndsPlain r .badRequest s t) ∧
    (∀ l level, Line.ofNum r.sub.toNat = some l → field r.addr 0 2 = (if level then 1 else 0) →
      (level = true → r.addr.getLsbD 3 = false) → r.addr.getLsbD 20 = false → r.addr.toNat < 2 ^ 24 →
      ∃ u t, exec .lineSet s = .next t ∧ EndsPlain r .ok u t ∧ Within Touch.draining s u ∧
        (∀ m, m ≠ l → u.lineRec m = s.lineRec m) ∧
        u.lineRec l =
          { level := level, mask := r.addr.getLsbD 2, inService := (s.lineRec l).inService
            drain := ⟨r.addr.getLsbD 16, r.addr.getLsbD 17, r.addr.getLsbD 18, r.addr.getLsbD 19, r.addr.getLsbD 21,
                      r.addr.getLsbD 22, r.addr.getLsbD 23⟩
            autoEnd := r.addr.getLsbD 3
            pending := if (s.lineRec l).level = level then (s.lineRec l).pending
                       else level && s.pins.irq.get l && s.slot.line ≠ .asserted
            overrun := if (s.lineRec l).level = level then (s.lineRec l).overrun else false } ∧
        NewCandidate s u)) ∧
  (∀ (on : Bool) (i : Instr) (s : State) (r : Record), i = (if on then .lineMaskSet else .lineMaskClear) →
    takenRecord s = some r → r.kind = .lineMask → flag1 r = on → s.irq.poll = none → s.irq.pollWaiting = false →
    ((∃ n, n ∈ [0, 1, 2, 8, 13, 16, 17, 18, 19, 20, 21, 22, 23, 24, 25, 26, 27, 28, 29, 30, 31] ∧
        r.addr.getLsbD n = true) → ∃ t, exec i s = .next t ∧ EndsPlain r .badRequest s t) ∧
    ((∀ n, n ∈ [0, 1, 2, 8, 13, 16, 17, 18, 19, 20, 21, 22, 23, 24, 25, 26, 27, 28, 29, 30, 31] →
        r.addr.getLsbD n = false) →
      ∃ u t, exec i s = .next t ∧ EndsPlain r .ok u t ∧ Within Touch.draining s u ∧
        (∀ l, u.lineRec l = { s.lineRec l with
          mask := if r.addr.getLsbD l.num then on else (s.lineRec l).mask }) ∧ NewCandidate s u))

/-- The line is in service and none in service stands above it in the ring read from the top. -/
def Sys2Proof.Machine.HighestInService (s : State) (l : Line) : Prop :=
  (s.lineRec l).inService = true ∧
    ∀ m, (s.lineRec m).inService = true → rank (setTop s.settings) l ≤ rank (setTop s.settings) m

/-- LINE END takes a line out of service: the one named, or the one of highest priority in service. Another answers NOT IN SERVICE, and a
number that names no line BAD REQUEST. With the rotate flag the priority top in the settings entry becomes the line that follows. -/
def Obligations.LineEndTakesOutOfService : Prop :=
  ∀ (i : Instr) (s : State) (r : Record), i = (if flag1 r then .lineEndSpecific else .lineEndNonSpecific) →
    takenRecord s = some r → r.kind = .lineEnd → s.irq.poll = none → s.irq.pollWaiting = false →
    (flag1 r = true → Line.ofNum r.sub.toNat = none → ∃ t, exec i s = .next t ∧ EndsPlain r .badRequest s t) ∧
    (∀ l, flag1 r = true → Line.ofNum r.sub.toNat = some l → (s.lineRec l).inService = false →
      ∃ t, exec i s = .next t ∧ EndsPlain r .notInService s t) ∧
    (flag1 r = false → (∀ l, (s.lineRec l).inService = false) →
      ∃ t, exec i s = .next t ∧ EndsPlain r .notInService s t) ∧
    (∀ l, (flag1 r = true ∧ Line.ofNum r.sub.toNat = some l ∧ (s.lineRec l).inService = true) ∨
        (flag1 r = false ∧ HighestInService s l) →
      ∃ u t, exec i s = .next t ∧ EndsPlain r .ok u t ∧
        Within { irq := true, staging := true, master := true, order := true, settings := true } s u ∧
        u.lineRec l = { s.lineRec l with inService := false } ∧ (∀ m, m ≠ l → u.lineRec m = s.lineRec m) ∧
        (flag2 r = false → u.settings = s.settings) ∧
        (flag2 r = true → setTop u.settings = l.after ∧ u.settings.w0 = s.settings.w0 ∧ u.settings.w1 = s.settings.w1 ∧
          setNested u.settings = setNested s.settings))

/-- The line may be delivered: unmasked, pending, not in service, and in NESTED mode with no line in service at its rank or above. -/
def Sys2Proof.Machine.MayDeliver (s : State) (l : Line) : Prop :=
  (s.lineRec l).mask = false ∧ (s.lineRec l).pending = true ∧ (s.lineRec l).inService = false ∧
    (setNested s.settings = true →
      ∀ m, (s.lineRec m).inService = true → rank (setTop s.settings) l < rank (setTop s.settings) m)

/-- LINE POLL behind a candidate waits for it. Else, with no line to deliver, it answers NOTHING; with the highest such line bound to no channel
with staged bytes, it answers the line's number and overrun mark at once and the line is in service (unless auto-end), an EDGE line's
pending cleared; with bytes to drain it holds its selection and waits for them. -/
def Obligations.LinePollSelectsAndAnswers : Prop :=
  ∀ (s : State) (x : Exec), JustTaken s x → x.request.kind = .linePoll → s.irq.poll = none → s.irq.pollWaiting = false →
    (∀ d, s.irq.delivery = some d → MayDeliver s d.line → d.waits.complete = d.posting →
      exec .linePoll s = .next { s with
        queue := { s.queue with exec := some { x with phase := .active } }, irq := { s.irq with pollWaiting := true } }) ∧
    (s.irq.delivery = none → (∀ l, ¬ MayDeliver s l) → ∃ t, exec .linePoll s = .next t ∧ EndsPlain x.request .nothing s t) ∧
    (∀ l, s.irq.delivery = none → MayDeliver s l →
      (∀ m, MayDeliver s m → rank (setTop s.settings) l ≤ rank (setTop s.settings) m) →
      ((∀ c, (s.lineRec l).drain.get c = true → (s.chan c).mode ≠ .master ∧ (stagesToMemory (s.chan c) = true → stagedCount c s = 0)) →
        ∃ u v t, exec .linePoll s = .next t ∧
          Ends x.request .ok 0 [BitVec.ofNat 8 l.num, if (s.lineRec l).overrun then 1 else 0, 0, 0, 0, 0, 0, 0] u v ∧
          Within Touch.draining s u ∧ Within Touch.draining v t ∧ t.irq.poll = none ∧
          t.lineRec l = { s.lineRec l with
            inService := !(s.lineRec l).autoEnd, pending := (s.lineRec l).level, overrun := false } ∧
          (∀ m, m ≠ l → t.lineRec m = s.lineRec m)) ∧
      (∀ c, (s.lineRec l).drain.get c = true → stagesToMemory (s.chan c) = true → stagedCount c s ≠ 0 →
        ∃ t p, exec .linePoll s = .next t ∧ Within { irq := true, staging := true, master := true, order := true, queue := true } s t ∧
          t.queue = { s.queue with exec := some { x with phase := .active } } ∧ t.irq.lines = s.irq.lines ∧
          t.irq.poll = some p ∧ p.line = l ∧ p.waits.chans.get c = stagedCount c s ∧ (t.stage c).opened = none))

/-- A rise sets an EDGE line's pending, or its overrun mark where it is pending already; a LEVEL line's pending follows its line both ways, and
a fall leaves an EDGE line as it is. While the slot reset line is ASSERTED nothing is captured, and a line already at the level changes
nothing. What follows of delivery leaves the line records as captured. -/
def Obligations.InterruptLinesAreCaptured : Prop :=
  ∀ (s : State) (l : Line),
    (s.pins.irq.get l = true → exec (.interruptLineRise l) s = .next s) ∧
    (s.pins.irq.get l = false → exec (.interruptLineFall l) s = .next s) ∧
    (s.slot.line = .asserted →
      (s.pins.irq.get l = false →
        exec (.interruptLineRise l) s = .next { s with pins := { s.pins with irq := s.pins.irq.put l true } }) ∧
      (s.pins.irq.get l = true →
        exec (.interruptLineFall l) s = .next { s with pins := { s.pins with irq := s.pins.irq.put l false } })) ∧
    (s.slot.line ≠ .asserted → s.irq.poll = none → s.irq.pollWaiting = false →
      (s.pins.irq.get l = false →
        ∃ t, exec (.interruptLineRise l) s = .next t ∧
          Within { pins := true, irq := true, staging := true, master := true, order := true } s t ∧
          t.pins = { s.pins with irq := s.pins.irq.put l true } ∧ (∀ m, m ≠ l → t.lineRec m = s.lineRec m) ∧
          t.lineRec l = { s.lineRec l with
            pending := true
            overrun := (s.lineRec l).overrun || (!(s.lineRec l).level && (s.lineRec l).pending) } ∧
          (s.irq.delivery = none → MayDeliver t l → (∀ m, m ≠ l → ¬ MayDeliver s m) →
            ∃ d, t.irq.delivery = some d ∧ d.line = l)) ∧
      (s.pins.irq.get l = true →
        ∃ t, exec (.interruptLineFall l) s = .next t ∧
          Within { pins := true, irq := true, staging := true, master := true, order := true } s t ∧
          t.pins = { s.pins with irq := s.pins.irq.put l false } ∧ (∀ m, m ≠ l → t.lineRec m = s.lineRec m) ∧
          t.lineRec l = { s.lineRec l with pending := (s.lineRec l).pending && !(s.lineRec l).level }))

/-! ## Streams -/

/-- The two stream requests: command, kind, and whether it is a STREAM IN. -/
def Sys2Proof.Machine.streamRows : List (Instr × ReqKind × Bool) := [(.streamIn, .streamIn, true), (.streamOut, .streamOut, false)]

/-- The operand check of a stream: width, port, total, and a first segment that is a table entry or END. -/
def Sys2Proof.Machine.streamCheck (r : Record) : Prop :=
  (r.sub = 0 ∨ r.sub = 1) ∧ r.addr.toNat < 65536 ∧ 1 ≤ r.value.toNat ∧ r.value.toNat ≤ 16777216 ∧
    (field r.mask 0 8 < 64 ∨ field r.mask 0 8 = 127)

/-- A stream is checked in order: BAD REQUEST, HELD, NO WINDOW, SPAN, REFUSED by a window that does not FORWARD, SHORT where its first segment is
END, BAD SEGMENT where it is invalid. The data bytes of those last two, which the checks do not give, are the model's (log entry 18), and so
are the 00h bytes of HELD, NO WINDOW, SPAN and REFUSED (log entry 46). One that passes is WAITING with nothing moved: a STREAM IN knows
the place of its first byte, and a STREAM OUT has formed its first read where the buffer has the room. -/
def Obligations.StreamsAreCheckedAndTaken : Prop :=
  ∀ (c : Instr) (k : ReqKind) (isIn : Bool), (c, k, isIn) ∈ streamRows →
    ∀ (s : State) (r : Record), takenRecord s = some r → r.kind = k →
      (¬ streamCheck r → ∃ t, exec c s = .next t ∧ EndsPlain r .badRequest s t) ∧
      (streamCheck r → s.slot.held = true → ∃ t, exec c s = .next t ∧ EndsPlain r .held s t) ∧
      (streamCheck r → s.slot.held = false → (∀ e, e ∈ s.windows.toList → ¬ windowHolds e .port r.addr.toNat) →
        ∃ t, exec c s = .next t ∧ EndsPlain r .noWindow s t) ∧
      (∀ n w, streamCheck r → s.slot.held = false → Decides s n w .port r.addr.toNat →
        (winLimit w < r.addr.toNat + r.sub.toNat → ∃ t, exec c s = .next t ∧ EndsPlain r .span s t) ∧
        (r.addr.toNat + r.sub.toNat ≤ winLimit w → winAction w = 1 ∨ winAction w = 2 →
          ∃ t, exec c s = .next t ∧ EndsPlain r .refusedByWindow s t) ∧
        (r.addr.toNat + r.sub.toNat ≤ winLimit w → winAction w = 0 →
          (field r.mask 0 8 = 127 →
            ∃ t, exec c s = .next t ∧ Ends r .short 0 [127, 127, 0, 0, 0, 0, 0, 0] s t) ∧
          (field r.mask 0 8 < 64 → (s.segment (field r.mask 0 8)).valid = false →
            ∃ t, exec c s = .next t ∧ Ends r .badSegment 0
              [BitVec.ofNat 8 (field r.mask 0 8), BitVec.ofNat 8 (field r.mask 0 8), 0, 0, 0, 0, 0, 0] s t) ∧
          (∀ x g, field r.mask 0 8 < 64 → g = s.segment (field r.mask 0 8) → g.valid = true → s.queue.exec = some x →
            ∃ t st, exec c s = .next t ∧
              t = { s with
                queue := { s.queue with exec := some { x with phase := .waiting } }, stream := t.stream, order := t.order } ∧
              t.stream.active = some st ∧ st.isIn = isIn ∧ st.port = r.addr.toNat ∧ st.wordWide = decide (r.sub = 1) ∧
              st.words = winWords w ∧ st.waits = winWaits w ∧ st.report = winReport w ∧ st.total = r.value.toNat ∧
              st.moved = 0 ∧ st.piece = none ∧ st.firstFault = none ∧
              (isIn = true → t.order = s.order ∧ st.chunks = [] ∧
                st.step.head? = some ⟨segHost g, field r.mask 0 8, 0, decide (segLength g = 1), 0⟩ ∧
                st.step.length = if r.sub = 1 ∧ 2 ≤ r.value.toNat ∧ 2 ≤ segLength g then 2 else st.step.length) ∧
              (∀ m, isIn = false → m = min (min 64 (segLength g)) (min (4096 - segHost g % 4096) r.value.toNat) →
                pieceBytes s.order + m ≤ 512 → s.order = [] →
                st.chunks = [⟨s.stream.readId, 0, m, field r.mask 0 8, 0, none⟩] ∧ t.order = [] ∧
                t.stream.readId = s.stream.readId + 1))))

/-- One byte of a STREAM IN enters the buffer: it joins the open piece where it lies one above its last host byte in the same use and host
frame, and closes it at 64 bytes or at the end of its segment or host frame; else the open piece is closed and it begins a new one, which
stays open wherever it stands (the model's reading, log entry 14). A closed piece takes its place at the tail of the order. -/
def Sys2Proof.Machine.entersPiece (po : Option Piece × List OrderItem) (sb : Spot × Byte) : Option Piece × List OrderItem :=
  match po.1 with
  | none => (some ⟨sb.1.host, [sb.2], sb.1.use⟩, po.2)
  | some p =>
    if sb.1.host = p.host + p.bytes.length ∧ sb.1.use = p.use ∧ sb.1.host / 4096 = p.host / 4096 then
      (if p.bytes.length + 1 = 64 ∨ sb.1.lastOfSeg = true ∨ (sb.1.host + 1) % 4096 = 0 then
        (none, po.2 ++ [.write .piece p.host (p.bytes ++ [sb.2])])
      else (some { p with bytes := p.bytes ++ [sb.2] }, po.2))
    else (some ⟨sb.1.host, [sb.2], sb.1.use⟩, po.2 ++ [.write .piece p.host p.bytes])

/-- The first fault of the stream, or else that of the step. -/
def Sys2Proof.Machine.faultSoFar (st : StreamRec) (x : Xfer) : Option Cause :=
  match st.firstFault with
  | some k => some k
  | none => x.firstFault

/-- The stream record and the order of host writes once a step that moved `x.moved` bytes has been counted: nothing moved; the bytes of a
STREAM IN at their places in the buffer; or the bytes of a STREAM OUT, here all of one read, gone from the buffer's front. -/
def Sys2Proof.Machine.StepCounted (s : State) (st : StreamRec) (x : Xfer) (st' : StreamRec) (o : List OrderItem) : Prop :=
  (x.moved = [] ∧ o = s.order ∧
    st' = { st with firstFault := faultSoFar st x, step := if st.isIn then [] else st.step }) ∨
  (∃ sp, st.isIn = true ∧ (st.step.take x.moved.length).getLast? = some sp ∧
    o = ((st.step.zip x.moved).foldl entersPiece (st.piece, s.order)).2 ∧
    st' = { st with
      moved := st.moved + x.moved.length, firstFault := faultSoFar st x, step := [], lastSeg := sp.seg, used := sp.off + 1
      piece := ((st.step.zip x.moved).foldl entersPiece (st.piece, s.order)).1 }) ∨
  (∃ k ks bs, st.isIn = false ∧ st.chunks = k :: ks ∧ k.data = some bs ∧ x.moved ≠ [] ∧ x.moved.length ≤ bs.length ∧ o = s.order ∧
    st' = { st with
      moved := st.moved + x.moved.length, firstFault := faultSoFar st x, lastSeg := k.seg, used := k.off + x.moved.length
      chunks := if bs.length = x.moved.length then ks
        else { k with data := some (bs.drop x.moved.length), off := k.off + x.moved.length,
                      pos := k.pos + x.moved.length } :: ks })

/-- The stream of request `e` ends in `t` with a status: its open piece is decided, what it read ahead is dropped, and its outcome carries
the bytes moved, the last segment, the ending next, the first fault and the bytes used. -/
def Sys2Proof.Machine.StreamEnds (hf : Bool) (status : Status) (s : State) (e : Exec) (st : StreamRec) (o : List OrderItem)
    (t : State) : Prop :=
  ∃ u, EndsWith hf e.request status st.moved
      ([BitVec.ofNat 8 st.lastSeg,
        BitVec.ofNat 8 (if status = .short ∨ status = .badSegment then st.endingNext.getD 255 else 255),
        (match st.firstFault with
          | none => 0
          | some .ready => 1
          | some .check => 2), 0] ++ le32 st.used)
      { s with
        xfer := none, arb := { s.arb with owner := .free }
        slot := { s.slot with cycle := none, readyTimer := none, lastAddr := none }
        order := o ++ (match st.piece with
          | some p => [.write .piece p.host p.bytes]
          | none => [])
        stream := { s.stream with active := some { st with piece := none, chunks := [], step := [] } } } u ∧
    Within { slot := true, arb := true, dma := true, master := true } u t

/-- A step's tenure is over in `t`, with the stream record `st` and the order `o` counted: an abort or a fault under HALT ends the stream; else
it ends where its walk end stands at the bytes moved, and otherwise goes on with the places of its next step found. -/
def Sys2Proof.Machine.StepOver (s : State) (e : Exec) (x : Xfer) (st : StreamRec) (o : List OrderItem) (t : State) : Prop :=
  (x.aborted = true → StreamEnds false .aborted s e st o t) ∧
  (∀ k, x.aborted = false → x.stopped = true → st.firstFault = some k →
    StreamEnds true (match k with
      | .ready => .ready
      | .check => .check) s e st o t) ∧
  (∀ st', x.aborted = false → x.stopped = false → st' = prepareStep s st →
    (∀ k, st'.walkEnd = some (k, st'.moved) →
      StreamEnds false (match k with
        | .total =>
          (match st'.firstFault with
            | none => .ok
            | some .ready => .ready
            | some .check => .check)
        | .atEnd => .short
        | .invalid => .badSegment
        | .failed => .hostError) s e st' o t) ∧
    ((∀ k, st'.walkEnd ≠ some (k, st'.moved)) →
      ∃ u, u = { s with
          xfer := none, arb := { s.arb with owner := .free }, order := o
          slot := { s.slot with cycle := none, readyTimer := none, lastAddr := none }
          stream := { s.stream with active := some st' } } ∧
        Within { slot := true, arb := true, dma := true, master := true } u t))

/-- The end of a host-path cycle by a command: the cycle's size, whether it faulted, the bytes on the data lines, and the transfer with the
fault, if the command is one. -/
def Sys2Proof.Machine.EndsCycle (i : Instr) (cyc : Cycle) (x : Xfer) (n : Nat) (faulted : Bool) (bs : List Byte) (x' : Xfer) : Prop :=
  (∃ sense data, i = .hostCycleEnd sense true data ∧ cyc.phase = .running ∧ cyc.sense = none ∧
    n = (if cyc.kind = .word ∧ sense = true then 2 else 1) ∧ faulted = (cyc.ready || cyc.check) ∧
    bs = [data.extractLsb' 0 8, data.extractLsb' 8 8] ∧ x' = x) ∨
  (∃ data, i = .readyRelease data ∧ cyc.phase = .extended ∧ n = (if cyc.kind = .word then 2 else 1) ∧
    faulted = (cyc.ready || cyc.check) ∧ bs = [data.extractLsb' 0 8, data.extractLsb' 8 8] ∧ x' = x) ∨
  (i = .readyLimitExpiry ∧ cyc.phase = .extended ∧ n = (if cyc.kind = .word then 2 else 1) ∧ faulted = true ∧
    bs = [0xFF, 0xFF] ∧ x' = { x with
      stopped := x.stopped || !x.report
      firstFault := match x.firstFault with
        | some k => some k
        | none => some .ready })

/-- The bytes the next step of a STREAM OUT moves: 2 on a WORD port, and 1 on a BYTE port and for an odd last byte. -/
def Sys2Proof.Machine.nextOut (st : StreamRec) : Nat :=
  if st.wordWide = true ∧ st.walkEnd.map Prod.snd ≠ some (st.moved + 1) then 2 else 1

/-- The stream's next step can be made, with the transfer `y`: for a STREAM IN its bytes fit the buffer, for a STREAM OUT they have arrived. -/
def Sys2Proof.Machine.StepAsks (s : State) (st : StreamRec) (y : Xfer) : Prop :=
  (st.isIn = true ∧ st.step ≠ [] ∧ st.step.length + heldBytes st + pieceBytes s.order ≤ 512 ∧
    y = ⟨.port, true, st.words, st.waits, st.report, true, st.port, st.step.length, [], [], 0, false, none, false, false⟩) ∨
  (st.isIn = false ∧ nextOut st ≤ (arrived st.chunks).length ∧
    y = ⟨.port, false, st.words, st.waits, st.report, true, st.port, nextOut st, [], (arrived st.chunks).take (nextOut st), 0, false,
      none, false, false⟩)

/-- A port step of a stream that has not ended asks for the bus once it can be made: a STREAM IN step whose bytes fit the buffer, a STREAM OUT
step whose bytes have arrived, 2 on a WORD port but for an odd last byte. With another owner on the bus the host path waits; on a free bus
with nothing ahead of it the host path is granted and the step's first cycle begins. A step that cannot be made, and a command with no stream
at rest, change nothing. The last cycle of a step, ended by ready, its release or the ready limit, counts its bytes (one faulted under HALT
counts none, and one under REPORT counts FFh; a byte cycle's byte stands in the low half of the data, log entry 37), and the step's tenure is
over: the bytes of a STREAM IN enter and close pieces, those of a STREAM OUT leave the buffer, and the stream ends ABORTED, READY or CHECK,
OK, SHORT, BAD SEGMENT or HOST ERROR, or goes on. A step that the abort reached ends there, between two byte cycles too (log entry 51), and
the stream ends ABORTED also where its cycle then faulted under HALT, with the fault in its first-fault byte: the model's reading (log entry
17). -/
def Obligations.StreamStepAsksForTheBus : Prop :=
  (∀ (s : State) (i : Instr) (cyc : Cycle) (x x0 x1 : Xfer) (n : Nat) (faulted : Bool) (bs : List Byte) (st st1 : StreamRec)
    (e : Exec) (o : List OrderItem), s.slot.cycle = some cyc → cyc.owner = .hostPath → cyc.kind ∈ [.byte, .word] →
    s.arb.owner = .hostPath → s.arb.hostWaiting = false → s.xfer = some x → x.forStream = true → s.stream.active = some st →
    s.queue.exec = some e → e.phase = .active → EndsCycle i cyc x n faulted bs x0 →
    x1 = (if faulted = true ∧ x0.report = false then x0 else { x0 with
      addr := x0.addr + n, left := x0.left - n, out := x0.out.drop n, lastLen := n, lastFaulted := faulted
      moved := x0.moved ++ (if faulted then List.replicate n 0xFF else bs.take n) }) →
    x1.left = 0 ∨ x1.stopped = true ∨ x1.aborted = true → StepCounted s st x1 st1 o →
    ∃ t, exec i s = .next t ∧ StepOver s e x1 st1 o t) ∧
  ∀ (s : State) (st : StreamRec) (x : Exec), s.stream.active = some st → s.queue.exec = some x →
    (x.phase = .taken ∨ x.phase = .ended ∨ s.arb.owner = .hostPath ∨ s.xfer ≠ none → exec .streamStep s = .next s) ∧
    (∀ y, x.phase = .waiting ∨ x.phase = .active → s.xfer = none → StepAsks s st y →
      (s.arb.owner ≠ .hostPath → s.arb.owner ≠ .free →
        exec .streamStep s = .next { s with
          xfer := some y
          arb := { s.arb with
            hostWaiting := true
            hostTurn := s.arb.hostTurn || (!s.arb.owner.isDma && setTenureLimit s.settings ≠ 0 &&
              setTenureLimit s.settings ≤ s.arb.dmaCount) } }) ∧
      (s.arb.owner = .free → s.slot.line ≠ .asserted → s.refresh.owed = 0 →
        (∀ d, d ∈ s.dma.order → (s.chan d).state ≠ .ready) →
        exec .streamStep s = .next { s with
          queue := { s.queue with exec := some { x with phase := .active } }
          xfer := some y
          arb := { s.arb with owner := .hostPath, hostWaiting := false, hostTurn := false, dmaCount := 0 }
          slot := { s.slot with clock := setClock s.settings, readyTimer := none, cycle := some y.cycle } })) ∧
    (x.phase = .waiting ∨ x.phase = .active → s.arb.owner ≠ .hostPath → s.xfer = none →
      (st.isIn = true → 512 < st.step.length + heldBytes st + pieceBytes s.order → exec .streamStep s = .next s) ∧
      (st.isIn = false → (arrived st.chunks).length < nextOut st → exec .streamStep s = .next s))

/-- A STREAM OUT reads on while its walk goes on and the buffer has the room; a read that has been sent gives the buffer its bytes, or, on an
error, sets the walk end at its first byte and drops it and what was read beyond it, and the stream ends HOST ERROR where that byte is the
next to move. A read that is not held does nothing. -/
def Obligations.StreamReadsFillTheBuffer : Prop :=
  ∀ (s : State) (st : StreamRec) (x : Exec), s.stream.active = some st → s.queue.exec = some x →
    x.phase = .waiting ∨ x.phase = .active → st.isIn = false →
    (st.walkEnd ≠ none → (∀ k p, st.walkEnd = some (k, p) → p ≠ st.moved) → exec .streamReadForm s = .next s) ∧
    (∀ n, st.walkEnd = none → s.order = [] →
      n = min (min 64 (segLength (s.segment st.seg) - st.off))
        (min (4096 - (segHost (s.segment st.seg) + st.off) % 4096) (st.total - st.placed)) →
      1 ≤ n → heldBytes st + n ≤ 512 → st.moved < st.placed + n →
      ∃ t st', exec .streamReadForm s = .next t ∧ Within { stream := true } s t ∧ t.stream.active = some st' ∧
        t.stream.readId = s.stream.readId + 1 ∧ st'.placed = st.placed + n ∧ st'.moved = st.moved ∧
        st'.chunks = st.chunks ++ [⟨s.stream.readId, st.placed, n, st.seg, st.off, none⟩] ∧
        (st.placed + n = st.total → st'.walkEnd = some (.total, st.total))) ∧
    (∀ id, (∀ k, k ∈ st.chunks → k.id ≠ id) → ∀ r, exec (.streamReadComplete id r) s = .next s) ∧
    (∀ pre k post, st.chunks = pre ++ k :: post → k.data = none → (∀ k', k' ∈ pre ++ post → k'.id ≠ k.id) →
      OrderItem.read (.stream k.id) ∉ s.order →
      (∀ bs : List Byte, bs.length = k.len →
        exec (.streamReadComplete k.id (.data bs)) s = .next { s with
          stream := { s.stream with active := some { st with
            chunks := pre ++ { k with data := some bs } :: post } } }) ∧
      ((∀ k', k' ∈ pre → k'.pos < k.pos) → (∀ k', k' ∈ post → k.pos ≤ k'.pos) →
        (∀ w p, st.walkEnd = some (w, p) → k.pos ≤ p) →
        (k.pos ≠ st.moved →
          exec (.streamReadComplete k.id .error) s = .next { s with
            stream := { s.stream with active := some { st with
              walkEnd := some (.failed, k.pos), endingNext := none, chunks := pre } } }) ∧
        (k.pos = st.moved → s.arb.owner ≠ .hostPath → st.piece = none →
          ∃ u t, exec (.streamReadComplete k.id .error) s = .next t ∧
            Within { arb := true, xfer := true, stream := true } s u ∧ u.arb.hostWaiting = false ∧
            Ends x.request .hostError st.moved (streamData st.lastSeg 0xFF st.firstFault st.used) u t)))

/-! ## The return ring -/

/-- The state once a record of sixteen bytes, its first given without the phase flag, has been written: it takes the next slot, whose address
does not wrap at the last host address (the model's choice, log entry 47), with the phase of the pass, W rises, and with notice armed the
MSI follows where the host has it enabled, and notice is disarmed. -/
def Sys2Proof.Machine.recordWritten (kind : Byte) (rest : List Byte) (s : State) : State :=
  { s with
    ret := { s.ret with w := s.ret.w + 1, armed := false }
    order := s.order ++
      [.write .record (s.ret.base.toNat + 16 * (s.ret.w.toNat % s.ret.size))
        ((if s.ret.w.toNat / s.ret.size % 2 = 0 then kind ||| 0x80 else kind) :: rest)] ++
      (if s.ret.armed && s.host.msiEnabled then [.write .msi 0 []] else []) }

/-- A channel has nothing owed. -/
def Sys2Proof.Machine.OwesNothing (s : State) (c : Chan) : Prop := (s.chan c).owedFaults = 0 ∧ (s.chan c).tcOwed = 0

/-- A record that the request behind a control answer caused is still to be written. -/
def Sys2Proof.Machine.GoesBehind (s : State) (c : Control) : Prop :=
  ∃ n, c.behind = some n ∧ ((∃ d, s.irq.delivery = some d ∧ n ∈ d.causes) ∨ (∃ b, n ∈ (s.chan b).faultCauses) ∨
    ∃ f, s.master.owedFault = some f ∧ n ∈ f.causes)

/-- The answer at the head of the list of control answers has the sequencer's place and goes behind a record. -/
def Sys2Proof.Machine.HeadHeldBack (s : State) : Prop :=
  s.queue.place = .control ∧ ∃ c cs, s.queue.controls = c :: cs ∧ GoesBehind s c

/-- The return writer writes the first waiting record, in the order sequencer, interrupt unit, channels by number with a CHANNEL FAULT ahead
of a CHANNEL END, MASTER FAULT, SLOT FAULT, REFRESH LATE, INTAKE FAULT, and its owner acts: the request retires, the answer leaves the list,
the line enters service, the owed record is gone, its address with it (log entry 31). An abort's answer goes behind the records that the
request it waited for caused, and a response that waits meanwhile is written first: the model's choice (log entry 41). A slot's address does
not wrap (log entry 47), and a SLOT FAULT with no address carries 0 for it (log entry 50). An answer behind the head begins to wait as it
becomes the head (log entry 52). With the ring unset or full nothing is written. -/
def Obligations.ReturnWriterWritesTheFirstWaiting : Prop :=
  ∀ s : State,
    (s.ret.ringSet = false ∨ s.ret.size ≤ (s.ret.w - s.ret.c).toNat → exec .returnRecordWrite s = .next s) ∧
    (s.ret.ringSet = true → (s.ret.w - s.ret.c).toNat < s.ret.size →
      (∀ e, s.queue.place = .response ∨ (HeadHeldBack s ∧ e.phase = .ended ∧ e.responds = true) → s.queue.exec = some e →
        ∃ t, exec .returnRecordWrite s = .next t ∧
          Retired e.haltFault (if e.responds then none else streamOf e.request) s.queue s.stream t ∧
          Within { queue := true, stream := true } (recordWritten 0x01
            ([e.request.tag, e.request.kind.code, e.answer.status.code] ++ le32 e.answer.count ++ pad8 e.answer.data) s) t) ∧
      (∀ c cs, s.queue.place = .control → s.queue.controls = c :: cs → ¬ GoesBehind s c →
        ∃ t, exec .returnRecordWrite s = .next t ∧
          t = { recordWritten 0x01 ([c.tag, c.kind, c.answer.status.code] ++ le32 c.answer.count ++ pad8 c.answer.data) s with
            queue := claimPlace { s.queue with controls := cs, place := .empty } }) ∧
      (s.queue.place = .empty ∨ (HeadHeldBack s ∧ ∀ e, s.queue.exec = some e → e.phase ≠ .ended ∨ e.responds = false) →
        (∀ d, s.irq.delivery = some d → d.posting = true → s.irq.poll = none → s.irq.pollWaiting = false →
          ∃ t, exec .returnRecordWrite s = .next t ∧
            Within Touch.draining (recordWritten 0x02
              [BitVec.ofNat 8 d.line.num, if (s.lineRec d.line).overrun then 1 else 0, 0, 0, 0, 0, 0,
               0, 0, 0, 0, 0, 0, 0, 0] s) t ∧
            t.lineRec d.line = { s.lineRec d.line with
              inService := (s.lineRec d.line).inService || !(s.lineRec d.line).autoEnd
              pending := (s.lineRec d.line).pending && (s.lineRec d.line).level, overrun := false } ∧
            (∀ m, m ≠ d.line → t.lineRec m = s.lineRec m)) ∧
        ((∀ d, s.irq.delivery = some d → d.posting = false) →
          (∀ c, (∀ b, b.num < c.num → OwesNothing s b) → (s.chan c).owedFaults ≠ 0 →
            exec .returnRecordWrite s = .next { recordWritten 0x04
                ([BitVec.ofNat 8 c.num, (s.chan c).owedFaults.setWidth 8, 0] ++ le32 (s.chan c).owedAddr.toNat ++
                  le32 (s.chan c).firstFault.toNat ++ [0, 0, 0, 0]) s with
              dma := { s.dma with chans := s.dma.chans.put c { s.chan c with owedFaults := 0, owedAddr := 0, faultCauses := [] } } }) ∧
          (∀ c, (∀ b, b.num < c.num → OwesNothing s b) → (s.chan c).owedFaults = 0 → (s.chan c).tcOwed ≠ 0 →
            exec .returnRecordWrite s = .next { recordWritten 0x03
                [BitVec.ofNat 8 c.num, BitVec.ofNat 8 (s.chan c).tcOwed, if (s.chan c).nextTaken then 1 else 0, 0, 0, 0, 0,
                 0, 0, 0, 0, 0, 0, 0, 0] s with
              dma := { s.dma with chans := s.dma.chans.put c { s.chan c with tcOwed := 0, nextTaken := false } } }) ∧
          ((∀ c, OwesNothing s c) →
            (∀ f, s.master.owedFault = some f →
              exec .returnRecordWrite s = .next { recordWritten 0x06
                  ([BitVec.ofNat 8 ((if f.ready then 1 else 0) + (if f.hostError then 2 else 0) + (if f.long then 4 else 0)),
                    0, 0] ++ le32 f.addr ++ [0, 0, 0, 0, 0, 0, 0, 0]) s with
                master := { s.master with owedFault := none } }) ∧
            (s.master.owedFault = none →
              (∀ f, s.slot.slotFault = some f →
                exec .returnRecordWrite s = .next { recordWritten 0x05
                    ([if f.cause = .ready then 1 else 2, if f.ofRefresh then 1 else 0, if f.addr = none then 0 else 1] ++
                      le32 (f.addr.getD 0) ++ [0, 0, 0, 0, 0, 0, 0, 0]) s with
                  slot := { s.slot with slotFault := none } }) ∧
              (s.slot.slotFault = none → s.refresh.late = true →
                exec .returnRecordWrite s = .next { recordWritten 0x07 [0, 0, 0, 0, 0, 0, 0, 0, 0, 0, 0, 0, 0, 0, 0] s with
                  refresh := { s.refresh with late := false } }) ∧
              (∀ k, s.slot.slotFault = none → s.refresh.late = false → s.intake.owed = some k →
                exec .returnRecordWrite s = .next { recordWritten 0x08
                    [k.code, BitVec.ofNat 8 s.intake.discards, 0, 0, 0, 0, 0, 0, 0, 0, 0, 0, 0, 0, 0] s with
                  intake := { s.intake with discards := 0, owed := none } }) ∧
              (s.slot.slotFault = none → s.refresh.late = false → s.intake.owed = none →
                exec .returnRecordWrite s = .next s))))))

/-! ## Management requests -/

/-- A word of the candidate of a TABLE WRITE: the named word takes the value where the mask holds 1, every other bit is the old one. -/
def Sys2Proof.Machine.candidateWord (r : Record) (n : Nat) (old : Word) : Word :=
  if field r.addr 16 8 = n then (r.value &&& r.mask) ||| (old &&& ~~~r.mask) else old

/-- The candidate of a TABLE WRITE, with every bit that holds no field 0. -/
def Sys2Proof.Machine.candidateOf (r : Record) (old : Entry) (m0 m1 m2 m3 : Word) : Entry :=
  ⟨candidateWord r 0 old.w0 &&& m0, candidateWord r 1 old.w1 &&& m1, candidateWord r 2 old.w2 &&& m2,
   candidateWord r 3 old.w3 &&& m3⟩

/-- TABLE WRITE to a window, map or segment entry: BAD REQUEST for a number outside the table or a word above 3, BAD ENTRY with nothing
written for a valid candidate that fails its owner's check, and else the candidate stands. A write to the map, whatever its outcome, makes
the master read line invalid. A table id above 3 is BAD REQUEST. -/
def Obligations.TableWriteMergesAndChecks : Prop :=
  ∀ (s : State) (r : Record) (n : Nat), takenRecord s = some r → r.kind = .tableWrite → n = field r.addr 0 16 →
    (3 < r.sub.toNat → ∃ t, exec .tableWriteWindow s = .next t ∧ EndsPlain r .badRequest s t) ∧
    (r.sub = 0 →
      (32 ≤ n ∨ 3 < field r.addr 16 8 → ∃ t, exec .tableWriteWindow s = .next t ∧ EndsPlain r .badRequest s t) ∧
      (∀ old e, s.windows.toList[n]? = some old → field r.addr 16 8 ≤ 3 →
        e = candidateOf r old 0x00FF01FF 0xFFFFFFFF 0xFFFFFFFF 0 →
        ((e.valid = true ∧ (winAction e = 3 ∨ winLimit e < winBase e ∨
            (if winMemory e then 2 ^ 24 else 2 ^ 16) ≤ winBase e ∨ (if winMemory e then 2 ^ 24 else 2 ^ 16) ≤ winLimit e)) →
          ∃ t, exec .tableWriteWindow s = .next t ∧ EndsPlain r .badEntry s t) ∧
        ((e.valid = false ∨ (winAction e ≠ 3 ∧ winBase e ≤ winLimit e ∧
            winBase e < (if winMemory e then 2 ^ 24 else 2 ^ 16) ∧ winLimit e < (if winMemory e then 2 ^ 24 else 2 ^ 16))) →
          ∃ t, exec .tableWriteWindow s = .next t ∧
            EndsPlain r .ok { s with windows := s.windows.setIfInBounds n e } t))) ∧
    (r.sub = 1 → ∀ u, u = { s with master := { s.master with
        readLine := none, fill := s.master.fill.map (fun f => { f with ignored := true }) } } →
      (32 ≤ n ∨ 3 < field r.addr 16 8 → ∃ t, exec .tableWriteMap s = .next t ∧ EndsPlain r .badRequest u t) ∧
      (∀ old e, s.map.toList[n]? = some old → field r.addr 16 8 ≤ 3 →
        e = candidateOf r old 0x0FFF0007 0x00000FFF 0xFFFFFFFF 0x000FFFFF →
        ((e.valid = true ∧ (mapAccess e = 3 ∨ 4096 < mapF e + mapN e ∨ 2 ^ 52 < mapG e + mapN e)) →
          ∃ t, exec .tableWriteMap s = .next t ∧ EndsPlain r .badEntry u t) ∧
        ((e.valid = false ∨ (mapAccess e ≠ 3 ∧ mapF e + mapN e ≤ 4096 ∧ mapG e + mapN e ≤ 2 ^ 52)) →
          ∃ t, exec .tableWriteMap s = .next t ∧ EndsPlain r .ok { u with map := s.map.setIfInBounds n e } t))) ∧
    (r.sub = 2 →
      (64 ≤ n ∨ 3 < field r.addr 16 8 → ∃ t, exec .tableWriteSegment s = .next t ∧ EndsPlain r .badRequest s t) ∧
      (∀ old e, s.segments.toList[n]? = some old → field r.addr 16 8 ≤ 3 →
        e = candidateOf r old 0xFFFFFF01 0xFFFFFFFF 0xFFFFFFFF 0 →
        ((e.valid = true ∧ ((64 ≤ segNext e ∧ segNext e ≠ 127) ∨ 2 ^ 64 < segHost e + segLength e)) →
          ∃ t, exec .tableWriteSegment s = .next t ∧ EndsPlain r .badEntry s t) ∧
        ((e.valid = false ∨ ((segNext e < 64 ∨ segNext e = 127) ∧ segHost e + segLength e ≤ 2 ^ 64)) →
          ∃ t, exec .tableWriteSegment s = .next t ∧
            EndsPlain r .ok { s with segments := s.segments.setIfInBounds n e } t)))

/-- TABLE WRITE to the settings entry: every field of the candidate is clamped to its range, a priority top that names no line to the line
R134 gives, and CLAMPED answers where one was out of it. Each field acts where its value changed: the slot clock at once on a free bus, a
refresh period by restarting its timer, a change to FIXED by setting the priority order to channel 0 first; the host writes this decides
stand channel by channel. -/
def Obligations.SettingsWriteIsClampedAndApplied : Prop :=
  ∀ (s : State) (r : Record) (e : Entry), takenRecord s = some r → r.kind = .tableWrite → r.sub = 3 →
    s.irq.poll = none → s.irq.pollWaiting = false → e = candidateOf r s.settings 0xFFFFFFFF 0xFFFFFFFF 0xFFFFFFFF 0xFFFFFFFF →
    (field r.addr 0 16 ≠ 0 ∨ 3 < field r.addr 16 8 →
      ∃ t, exec .tableWriteSettings s = .next t ∧ EndsPlain r .badRequest s t) ∧
    (field r.addr 0 16 = 0 → field r.addr 16 8 ≤ 3 →
      ∃ u t, exec .tableWriteSettings s = .next t ∧
        EndsPlain r (if setClockCode e ≠ 3 ∧ 2 ≤ setReadyLimit e ∧ (setRefreshPeriod e = 0 ∨ 5 ≤ setRefreshPeriod e) ∧
          setTopCode e ∈ [3, 4, 5, 6, 7, 9, 10, 11, 12, 14, 15] ∧ setNestCode e ≤ 1 then .ok else .clamped) u t ∧
        Within { settings := true, slot := true, refresh := true, staging := true, order := true, master := true, arb := true,
                 dma := true, irq := true } s u ∧
        setClockCode u.settings = min (setClockCode e) 2 ∧ setReadyLimit u.settings = max (setReadyLimit e) 2 ∧
        setRefreshPeriod u.settings = (if setRefreshPeriod e = 0 then 0 else max (setRefreshPeriod e) 5) ∧
        setAgeCode u.settings = setAgeCode e ∧ setTenureLimit u.settings = setTenureLimit e ∧
        setMasterHold u.settings = setMasterHold e ∧ setRotating u.settings = setRotating e ∧
        setNested u.settings = decide (setNestCode e ≠ 1) ∧
        (setTopCode e ∈ [3, 4, 5, 6, 7, 9, 10, 11, 12, 14, 15] → setTopCode u.settings = setTopCode e) ∧
        setTopCode u.settings = (if setTopCode e ≤ 2 then 3 else if setTopCode e = 8 then 9 else if setTopCode e = 13 then 14
          else if 15 < setTopCode e then 15 else setTopCode e) ∧
        (∃ new, u.order = s.order ++ new ∧ InChannelOrder new) ∧
        (s.arb.owner = .free → u.slot = { s.slot with clock := setClock u.settings }) ∧
        (s.arb.owner ≠ .free → u.slot = s.slot) ∧
        u.refresh = (if setRefreshPeriod u.settings = setRefreshPeriod s.settings then s.refresh
                     else { s.refresh with timer := 0 }) ∧
        u.dma = (if setRotating s.settings ∧ ¬ setRotating u.settings then
                   { s.dma with order := [.c0, .c1, .c2, .c3, .c5, .c6, .c7] } else s.dma) ∧
        (∀ l, u.lineRec l = s.lineRec l))

/-- Word `n` of entry `k` of a table, and 0 past the last word. -/
def Sys2Proof.Machine.tableWord (s : State) (id : Byte) (k n : Nat) : Word :=
  let e := if id = 0 then s.windows.toList.getD k ⟨0, 0, 0, 0⟩ else if id = 1 then s.map.toList.getD k ⟨0, 0, 0, 0⟩
    else if id = 2 then s.segments.toList.getD k ⟨0, 0, 0, 0⟩ else s.settings
  if n = 0 then e.w0 else if n = 1 then e.w1 else if n = 2 then e.w2 else if n = 3 then e.w3 else 0

/-- TABLE READ answers OK with count 8 and words w and w + 1 of the entry as it stands, 0 past word 3, and always responds; it is BAD REQUEST
for an id that names no table, an entry outside it, or a word above 3. Nothing but the request's own answer changes. -/
def Obligations.TableReadGivesTwoWords : Prop :=
  ∀ (s : State) (r : Record) (size k n : Nat), takenRecord s = some r → r.kind = .tableRead →
    size = (if r.sub = 0 ∨ r.sub = 1 then 32 else if r.sub = 2 then 64 else if r.sub = 3 then 1 else 0) →
    k = field r.addr 0 16 → n = field r.addr 16 8 →
    (size ≤ k ∨ 3 < n → ∃ t, exec .tableRead s = .next t ∧ EndsPlain r .badRequest s t) ∧
    (k < size → n ≤ 3 → ∃ t, exec .tableRead s = .next t ∧ respondsWith r .ok = true ∧
      Ends r .ok 8 (wordBytes (tableWord s r.sub k n) ++ wordBytes (tableWord s r.sub k (n + 1))) s t)

/-- TABLE CLEAR sets one entry, or with the all flag every entry, of a table to its reset value without any check, and a clear of the map
invalidates the master read line (R125), a refused one too (log entry 33); the settings entry takes its link reset values. An id above 3, or
without the all flag an entry outside the table, is BAD REQUEST with no table changed. -/
def Obligations.TableClearGivesResetValues : Prop :=
  ∀ (s u : State) (r : Record) (size k : Nat), takenRecord s = some r → r.kind = .tableClear →
    size = (if r.sub = 0 ∨ r.sub = 1 then 32 else if r.sub = 2 then 64 else if r.sub = 3 then 1 else 0) →
    k = field r.addr 0 16 →
    u = (if r.sub = 1 then { s with master := { s.master with
      readLine := none, fill := s.master.fill.map (fun f => { f with ignored := true }) } } else s) →
    (3 < r.sub.toNat ∨ (flag1 r = false ∧ size ≤ k) → ∃ t, exec .tableClear s = .next t ∧ EndsPlain r .badRequest u t) ∧
    (flag1 r = true ∨ k < size →
      (r.sub = 0 → ∃ t, exec .tableClear s = .next t ∧ EndsPlain r .ok { u with
        windows := if flag1 r then Vector.replicate 32 ⟨0, 0, 0, 0⟩ else s.windows.setIfInBounds k ⟨0, 0, 0, 0⟩ } t) ∧
      (r.sub = 1 → ∃ t, exec .tableClear s = .next t ∧ EndsPlain r .ok { u with
        map := if flag1 r then Vector.replicate 32 ⟨0, 0, 0, 0⟩ else s.map.setIfInBounds k ⟨0, 0, 0, 0⟩ } t) ∧
      (r.sub = 2 → ∃ t, exec .tableClear s = .next t ∧ EndsPlain r .ok { u with
        segments := if flag1 r then Vector.replicate 64 ⟨0, 0, 0, 0⟩ else s.segments.setIfInBounds k ⟨0, 0, 0, 0⟩ } t) ∧
      (r.sub = 3 → s.irq.poll = none → s.irq.pollWaiting = false →
        ∃ v t, exec .tableClear s = .next t ∧ EndsPlain r .ok v t ∧ v.settings = ⟨0x0A0F1001, 0, 9, 0⟩ ∧
          Within { settings := true, slot := true, refresh := true, staging := true, order := true, master := true,
                   arb := true, dma := true, irq := true } s v))

/-- IDENTIFY always responds, with status OK, the part code 4B33h as its count and the board's capacities as its data, in every state of the
board, the held state among them, and it changes nothing but its own answer. -/
def Obligations.IdentifyNamesTheBoard : Prop :=
  ∀ (s : State) (r : Record), takenRecord s = some r → r.kind = .identify →
    ∃ t, exec .identify s = .next t ∧ respondsWith r .ok = true ∧
      Ends r .ok 0x00004B33 [0x01, 64, 32, 32, 64, 7, 11, 0x00] s t

/-! ## Grants, invariants and records -/

/-- A free bus with the slot reset line not ASSERTED is granted in one order: a refresh that is owed; the host path, where it waits with host
turn; the channel highest in the priority order that is READY; the host path, where it waits. With none, it stays free. An owned bus, or an
ASSERTED line, grants nothing. The host path waits with its transfer set up. -/
def Obligations.GrantsFollowOneOrder : Prop :=
  ∀ s : State,
    (s.arb.owner ≠ .free → kickBus s = s) ∧
    (s.arb.owner = .free → s.slot.line = .asserted → (kickBus s).arb.owner = .free) ∧
    (s.arb.owner = .free → s.slot.line ≠ .asserted →
      (0 < s.refresh.owed → (kickBus s).arb.owner = .refresh) ∧
      (s.refresh.owed = 0 → s.arb.hostTurn = true → s.arb.hostWaiting = true → s.xfer ≠ none →
        (kickBus s).arb.owner = .hostPath ∧ (kickBus s).arb.hostWaiting = false ∧ (kickBus s).arb.hostTurn = false ∧
        (kickBus s).arb.dmaCount = 0) ∧
      (s.refresh.owed = 0 → s.arb.hostTurn = false ∨ s.arb.hostWaiting = false →
        (∀ pre c post, s.dma.order = pre ++ c :: post → (s.chan c).state = .ready →
          (∀ b, b ∈ pre → (s.chan b).state ≠ .ready) →
          ((s.chan c).mode ≠ .master → (kickBus s).arb.owner = .dma c ∧ ((kickBus s).chan c).state = .active) ∧
          ((s.chan c).mode = .master → (kickBus s).arb.owner = .master ∧ (kickBus s).arb.masterChan = some c ∧
            ((kickBus s).chan c).state = .mastered ∧ (kickBus s).master.readLine = none)) ∧
        ((∀ c, c ∈ s.dma.order → (s.chan c).state ≠ .ready) →
          (s.arb.hostWaiting = true → s.xfer ≠ none → (kickBus s).arb.owner = .hostPath ∧
            (kickBus s).arb.hostWaiting = false ∧ (kickBus s).arb.dmaCount = 0) ∧
          (s.arb.hostWaiting = false → kickBus s = { s with slot := { s.slot with clock := setClock s.settings } }))))

/-- Every step keeps a channel's mask set exactly in IDLE, DONE and STOPPING, and the priority order one turn of the ring of channels. -/
def Obligations.StepKeepsMasksAndOrder : Prop :=
  ∀ s t : State, MaskAgrees s → OrderGood s → step s = .next t → MaskAgrees t ∧ OrderGood t

/-- Every step keeps a cycle in progress exactly where an owner whose cycles the board drives has the bus, the cycle that owner's own, and the
bus without an owner while the slot reset line is ASSERTED. That such an owner's tenure is never without a cycle is the model's choice (log
entry 9). -/
def Obligations.StepKeepsOneCycleForTheOwner : Prop := ∀ s t : State, BusGood s → step s = .next t → BusGood t

/-- Every step keeps the request queue within 64 records and the list of control answers within 16, with the request in flight at the head. -/
def Obligations.StepKeepsTheQueue : Prop := ∀ s t : State, QueueGood s → step s = .next t → QueueGood t

/-- Every step keeps W - C within a listed ring size, every saturating counter within its bound, and a candidate and a poll selection apart. -/
def Obligations.StepKeepsRingAndCounters : Prop :=
  ∀ s t : State, RingGood s → CountsGood s → DeliveryGood s → step s = .next t → RingGood t ∧ CountsGood t ∧ DeliveryGood t

/-- Every step keeps every table entry acceptable to its owner's check, and every field of the settings entry in its range. -/
def Obligations.StepKeepsTablesAndSettings : Prop :=
  ∀ s t : State, TablesGood s → SettingsGood s → step s = .next t → TablesGood t ∧ SettingsGood t

/-- Every step keeps host memory in canonical form, the master write buffer within 16 entries, and a valid read line, with the fill that would
become one, in agreement with the map as it stands. -/
def Obligations.StepKeepsBuffers : Prop := ∀ s t : State, BuffersGood s → step s = .next t → BuffersGood t

/-- The state after link reset meets every invariant. -/
def Obligations.InvariantsHoldAfterLinkReset : Prop :=
  MaskAgrees State.reset ∧ OrderGood State.reset ∧ BusGood State.reset ∧ QueueGood State.reset ∧ RingGood State.reset ∧
    CountsGood State.reset ∧ DeliveryGood State.reset ∧ TablesGood State.reset ∧ SettingsGood State.reset ∧
    BuffersGood State.reset

/-- A write of whole records to the request port brings exactly those records, each with every field as it was written, in address order,
each but the last with more of the write to come. -/
def Obligations.WholeRecordsDecodeToThemselves : Prop :=
  ∀ (rs : List Record) (offset : BitVec 12), rs ≠ [] → offset.toNat % 16 = 0 → offset.toNat + 16 * rs.length ≤ 0x800 →
    decodeWrite offset ((rs.flatMap Record.encode).map some) =
      rs.dropLast.map (fun r => .queuedKindAppend ⟨r, true⟩) ++ rs.getLast?.toList.map (fun r => .queuedKindAppend ⟨r, false⟩)

end
end

