-- ==== Sys2Proof/Laws/Frame.lean ====
section
/-! SUPPORT. Which blocks each shared operation may touch: one `_within` lemma per operation, which proofs cite instead of unfolding. -/

namespace Sys2Proof.Machine

set_option Elab.async false

/-! ## Putting frames together -/

/-- `m` names no block that `n` does not. -/
def Touch.le (m n : Touch) : Bool :=
  (!m.pending || n.pending) && (!m.slot || n.slot) && (!m.xfer || n.xfer) && (!m.windows || n.windows) &&
  (!m.queue || n.queue) && (!m.arb || n.arb) && (!m.refresh || n.refresh) && (!m.dma || n.dma) &&
  (!m.map || n.map) && (!m.staging || n.staging) && (!m.order || n.order) && (!m.master || n.master) &&
  (!m.irq || n.irq) && (!m.segments || n.segments) && (!m.stream || n.stream) && (!m.ret || n.ret) &&
  (!m.intake || n.intake) && (!m.settings || n.settings) && (!m.pins || n.pins) && (!m.host || n.host)

theorem Within.refl (m : Touch) (s : State) : Within m s s := by constructor <;> intro _ <;> rfl

theorem Within.mono {m n : Touch} {s t : State} (h : Within m s t) (l : m.le n = true) : Within n s t := by
  simp only [Touch.le, Bool.and_eq_true, Bool.or_eq_true, Bool.not_eq_true'] at l
  constructor <;> intro hn
  all_goals first
    | exact h.pending (by simp_all) | exact h.slot (by simp_all) | exact h.xfer (by simp_all)
    | exact h.windows (by simp_all) | exact h.queue (by simp_all) | exact h.arb (by simp_all)
    | exact h.refresh (by simp_all) | exact h.dma (by simp_all) | exact h.map (by simp_all)
    | exact h.staging (by simp_all) | exact h.order (by simp_all) | exact h.master (by simp_all)
    | exact h.irq (by simp_all) | exact h.segments (by simp_all) | exact h.stream (by simp_all)
    | exact h.ret (by simp_all) | exact h.intake (by simp_all) | exact h.settings (by simp_all)
    | exact h.pins (by simp_all) | exact h.host (by simp_all)

theorem Within.trans {m : Touch} {s t u : State} (h : Within m s t) (k : Within m t u) : Within m s u where
  pending e := (k.pending e).trans (h.pending e)
  slot e := (k.slot e).trans (h.slot e)
  xfer e := (k.xfer e).trans (h.xfer e)
  windows e := (k.windows e).trans (h.windows e)
  queue e := (k.queue e).trans (h.queue e)
  arb e := (k.arb e).trans (h.arb e)
  refresh e := (k.refresh e).trans (h.refresh e)
  dma e := (k.dma e).trans (h.dma e)
  map e := (k.map e).trans (h.map e)
  staging e := (k.staging e).trans (h.staging e)
  order e := (k.order e).trans (h.order e)
  master e := (k.master e).trans (h.master e)
  irq e := (k.irq e).trans (h.irq e)
  segments e := (k.segments e).trans (h.segments e)
  stream e := (k.stream e).trans (h.stream e)
  ret e := (k.ret e).trans (h.ret e)
  intake e := (k.intake e).trans (h.intake e)
  settings e := (k.settings e).trans (h.settings e)
  pins e := (k.pins e).trans (h.pins e)
  host e := (k.host e).trans (h.host e)

/-- One change after another, each within what the whole may touch. -/
theorem Within.seq {m n k : Touch} {s t u : State} (h1 : Within m s t) (h2 : Within n t u)
    (l1 : m.le k = true := by decide) (l2 : n.le k = true := by decide) : Within k s u :=
  (h1.mono l1).trans (h2.mono l2)

/-- A change of one of two alternatives. -/
theorem Within.ite {m : Touch} {s t u : State} {p : Prop} [Decidable p] (h1 : Within m s t)
    (h2 : Within m s u) : Within m s (if p then t else u) := by split <;> assumption

/-! ## Setters -/

theorem putChan_within (c : Chan) (ch : Channel) (s : State) : Within { dma := true } s (s.putChan c ch) := by
  constructor <;> intro h <;> first | rfl | cases h
theorem putStage_within (c : Chan) (st : Staging) (s : State) : Within { staging := true } s (s.putStage c st) := by
  constructor <;> intro h <;> first | rfl | cases h
theorem putLine_within (l : Line) (r : LineRec) (s : State) : Within { irq := true } s (s.putLine l r) := by
  constructor <;> intro h <;> first | rfl | cases h
theorem putQueue_within (q : Queue) (s : State) : Within { queue := true } s (s.putQueue q) := by
  constructor <;> intro h <;> first | rfl | cases h
theorem putSlot_within (e : SlotEngine) (s : State) : Within { slot := true } s (s.putSlot e) := by
  constructor <;> intro h <;> first | rfl | cases h
theorem putArb_within (a : Arbiter) (s : State) : Within { arb := true } s (s.putArb a) := by
  constructor <;> intro h <;> first | rfl | cases h
theorem putMaster_within (m : MasterPort) (s : State) : Within { master := true } s (s.putMaster m) := by
  constructor <;> intro h <;> first | rfl | cases h
theorem putIrq_within (i : Interrupts) (s : State) : Within { irq := true } s (s.putIrq i) := by
  constructor <;> intro h <;> first | rfl | cases h
theorem putOrder_within (o : List OrderItem) (s : State) : Within { order := true } s (s.putOrder o) := by
  constructor <;> intro h <;> first | rfl | cases h
theorem putActive_within (r : Option StreamRec) (s : State) : Within { stream := true } s (s.putActive r) := by
  constructor <;> intro h <;> first | rfl | cases h

/-! ## The order and the sequencer -/

theorem decideWrite_within (src : WriteSource) (a : Nat) (bs : List Byte) (s : State) :
    Within { order := true } s (decideWrite src a bs s) := putOrder_within _ s
theorem formRead_within (src : ReadSource) (s : State) : Within { order := true } s (formRead src s) :=
  putOrder_within _ s
theorem tallyWaits_within (f : Waits → Waits) (s : State) :
    Within { irq := true, queue := true } s (tallyWaits f s) := by
  constructor <;> intro h <;> first | rfl | cases h
theorem inChannelOrder_within {m : Touch} {event : State → State} {s : State} (h : Within m s (event s))
    (ho : m.order = true) : Within m s (inChannelOrder event s) :=
  h.trans (Within.mono (putOrder_within _ _) (by cases m; simp_all [Touch.le]))
/-- A channel with the owed faults it had keeps its causes. -/
@[simp] theorem Channel.blame_self (n : Nat) (ch : Channel) : ch.blame n ch = ch := by simp [Channel.blame]
/-- An event of the request in flight marks nothing that it did not touch (R50). -/
theorem causing_within {m : Touch} {event : State → State} {s : State} (h : Within m s (event s)) :
    Within m s (causing event s) where
  pending := h.pending
  slot := h.slot
  xfer := h.xfer
  windows := h.windows
  queue := h.queue
  arb := h.arb
  refresh := h.refresh
  dma e := by simp only [causing, State.chan, h.dma e, Channel.blame_self]; rfl
  map := h.map
  staging := h.staging
  order := h.order
  master e := by
    simp only [causing, h.master e]
    rcases hf : s.master with ⟨b, r, f, x, o, d, a⟩
    cases o <;> simp [MasterFault.blame]
  irq e := by
    simp only [causing, h.irq e]
    rcases hf : s.irq with ⟨l, d, p, w⟩
    cases d <;> simp [Delivery.blame]
  segments := h.segments
  stream := h.stream
  ret := h.ret
  intake := h.intake
  settings := h.settings
  pins := h.pins
  host := h.host
theorem takeHead_within (s : State) : Within { queue := true } s (takeHead s) :=
  Within.ite (putQueue_within _ s) (Within.refl _ s)
theorem retire_within (s : State) : Within { queue := true, stream := true } s (retire s) := by
  unfold retire
  split
  · exact Within.refl _ s
  · exact ((putActive_within none s).seq (putQueue_within _ _)
      (k := { queue := true, stream := true })).seq (takeHead_within _)
theorem endWith_within (hf : Bool) (st : Status) (n : Nat) (d : List Byte) (s : State) :
    Within { queue := true, stream := true } s (endWith hf st n d s) := by
  unfold endWith
  split
  · exact Within.refl _ s
  · exact Within.ite ((putQueue_within _ s).mono (by decide)) ((putQueue_within _ s).seq (retire_within _))
theorem endRequest_within (st : Status) (n : Nat) (d : List Byte) (s : State) :
    Within { queue := true, stream := true } s (endRequest st n d s) := endWith_within _ _ _ _ s
theorem answerPlain_within (st : Status) (s : State) :
    Within { queue := true, stream := true } s (answerPlain st s) := endWith_within _ _ _ _ s
theorem setPhase_within (p : ReqPhase) (s : State) : Within { queue := true } s (setPhase p s) :=
  putQueue_within _ s
theorem setWork_within (w : Work) (s : State) : Within { queue := true } s (setWork w s) := putQueue_within _ s
theorem inWrite_within {m n : Touch} {more : Bool} {event : State → State} {s : State} (h : Within m s (event s))
    (l : m.le n = true := by decide) (k : Touch.le { queue := true } n = true := by decide) :
    Within n s (inWrite more event s) := h.seq (putQueue_within _ _) l k
theorem pushControl_within (c : Control) (s : State) : Within { queue := true } s (pushControl c s) :=
  putQueue_within _ s

/-! ## Staging and channels -/

theorem closeRun_within (c : Chan) (s : State) : Within { staging := true, order := true } s (closeRun c s) := by
  unfold closeRun
  split
  · exact Within.refl _ s
  · exact (putStage_within _ _ s).seq (decideWrite_within _ _ _ _)
theorem placeFound_within (c : Chan) (bs : List Byte) (l e h : Nat) (s : State) :
    Within { staging := true, order := true } s (placeFound c bs l e h s) := by
  unfold placeFound
  dsimp only
  split
  · exact (putStage_within _ _ s).mono (by decide)
  · split
    · exact Within.ite ((putStage_within _ _ s).seq (closeRun_within _ _)) ((putStage_within _ _ s).mono (by decide))
    · exact (closeRun_within _ s).seq (putStage_within _ _ _)
theorem placeUnit_within (c : Chan) (bs : List Byte) (l : Nat) (s : State) :
    Within { staging := true, order := true } s (placeUnit c bs l s).1 := by
  unfold placeUnit
  split
  · exact Within.refl _ s
  · exact Within.refl _ s
  · exact placeFound_within _ _ _ _ _ s
theorem flushDemand_within (c : Chan) (s : State) :
    Within { staging := true, order := true } s (flushDemand c s) := by
  unfold flushDemand
  refine Within.ite (Within.ite (closeRun_within c s) ?_) (Within.refl _ s)
  exact (closeRun_within c s).seq (putStage_within _ _ _)
theorem startCursor_within (c : Chan) (s : State) : Within { staging := true } s (startCursor c s) :=
  putStage_within _ _ s
theorem discardPrefetch_within (c : Chan) (s : State) : Within { staging := true } s (discardPrefetch c s) :=
  putStage_within _ _ s
theorem cursorSync_within (c : Chan) (s : State) : Within { staging := true } s (cursorSync c s) :=
  Within.ite (Within.refl _ s) (putStage_within _ _ s)
theorem cursorNext_within (c : Chan) (b : Block) (s : State) : Within { staging := true } s (cursorNext c b s) := by
  unfold cursorNext
  dsimp only
  split
  · exact putStage_within _ _ s
  · exact Within.refl _ s
  · exact Within.ite (putStage_within _ _ s) (Within.refl _ s)
theorem consumeUnit_within (c : Chan) (s : State) : Within { staging := true } s (consumeUnit c s) := by
  unfold consumeUnit
  dsimp only
  split
  · split
    · exact putStage_within _ _ s
    · exact Within.refl _ s
  · exact Within.refl _ s
theorem recordFault_within (f : ChanFault) (a : Nat) (c : Chan) (s : State) :
    Within { dma := true } s (recordFault f a c s) := putChan_within _ _ s
theorem placeChan_within (b : Bool) (c : Chan) (s : State) : Within { dma := true } s (placeChan b c s) := by
  unfold placeChan
  refine Within.ite (Within.ite ?_ (putChan_within _ _ s)) (Within.refl _ s)
  exact (putChan_within _ _ s).trans (recordFault_within _ _ _ _)
theorem unmask_within (c : Chan) (ch : Channel) (s : State) :
    Within { dma := true, staging := true } s (unmask c ch s) := by
  refine Within.seq (n := { dma := true }) (k := { dma := true, staging := true })
    (m := { dma := true, staging := true }) ?_ (placeChan_within _ _ _)
  exact Within.ite ((putChan_within _ _ s).seq (startCursor_within _ _)) ((putChan_within _ _ s).mono (by decide))
theorem clearMask_within (c : Chan) (s : State) : Within { dma := true, staging := true } s (clearMask c s) := by
  unfold clearMask
  dsimp only
  split <;> first | exact causing_within (unmask_within _ _ s) | exact Within.refl _ s
theorem maskCheck_within (s : State) : Within { queue := true, stream := true } s (maskCheck s) := by
  unfold maskCheck
  split
  · exact Within.ite (answerPlain_within _ s) (Within.refl _ s)
  · exact Within.ite (answerPlain_within _ s) (Within.refl _ s)
  · exact Within.refl _ s
  · exact Within.refl _ s

/-- What the stopping of a channel may touch. -/
abbrev Touch.stopping : Touch := { queue := true, stream := true, dma := true, staging := true, order := true }

theorem waitingClear_within (c : Chan) (s : State) : Within Touch.stopping s (waitingClear c s) := by
  unfold waitingClear
  split
  · exact Within.ite ((setWork_within _ s).seq (clearMask_within _ _)) (Within.refl _ s)
  · exact Within.refl _ s
  · exact Within.refl _ s
  · exact Within.refl _ s
theorem endStopping_within (c : Chan) (s : State) : Within Touch.stopping s (endStopping c s) := by
  unfold endStopping
  split
  · refine Within.ite (Within.refl _ s) ?_
    exact ((putChan_within _ _ s).seq (waitingClear_within _ _) (k := Touch.stopping)).seq (maskCheck_within _)
  all_goals exact Within.refl _ s
theorem enterStopping_within (c : Chan) (d : Dest) (s : State) : Within Touch.stopping s (enterStopping c d s) := by
  unfold enterStopping
  refine Within.seq (m := Touch.stopping) ?_ (endStopping_within _ _)
  refine Within.ite ((putChan_within _ _ s).mono (by decide)) ?_
  cases (s.chan c).dir
  · exact (putChan_within _ _ s).seq (flushDemand_within _ _)
  · exact (putChan_within _ _ s).seq (discardPrefetch_within _ _)
  · exact (putChan_within _ _ s).mono (by decide)
theorem maskChan_within (c : Chan) (s : State) : Within Touch.stopping s (maskChan c s) := by
  unfold maskChan
  dsimp only
  split
  all_goals first
    | exact Within.refl _ s
    | exact (putChan_within _ _ s).seq (enterStopping_within _ _ _)
    | exact (putChan_within _ _ s).mono (by decide)
theorem stopOnFault_within (c : Chan) (s : State) : Within Touch.stopping s (stopOnFault c s) :=
  Within.ite (maskChan_within c s) (Within.refl _ s)
theorem unitFault_within (f : ChanFault) (a : Nat) (c : Chan) (s : State) :
    Within Touch.stopping s (unitFault f a c s) := (recordFault_within f a c s).seq (stopOnFault_within c _)
theorem terminalCount_within (c : Chan) (s : State) :
    Within { dma := true, staging := true, order := true } s (terminalCount c s) := by
  unfold terminalCount
  cases (s.chan c).dir
  · exact (putChan_within _ _ s).seq (flushDemand_within _ _)
  · exact (putChan_within _ _ s).seq (cursorSync_within _ _)
  · exact (putChan_within _ _ s).mono (by decide)
theorem rotateOrder_within (c : Chan) (s : State) : Within { dma := true } s (rotateOrder c s) := by
  unfold rotateOrder
  split
  · constructor <;> intro h <;> first | rfl | cases h
  · exact Within.refl _ s
theorem forChans_within {m : Touch} {f : Chan → State → State} (h : ∀ c s, Within m s (f c s)) (s : State) :
    Within m s (forChans f s) :=
  ((((((h _ _).trans (h _ _)).trans (h _ _)).trans (h _ _)).trans (h _ _)).trans (h _ _)).trans (h _ _)

/-! ## The master access port -/

theorem masterFault_within (k : MasterCause) (a : Nat) (s : State) :
    Within { master := true } s (masterFault k a s) := putMaster_within _ s
theorem decideGroup_within (s : State) : Within { master := true, order := true } s (decideGroup s) := by
  unfold decideGroup
  split
  · exact Within.refl _ s
  · exact (putMaster_within _ s).seq (decideWrite_within _ _ _ _)
theorem decideGroups_within (n : Nat) (s : State) : Within { master := true, order := true } s (decideGroups n s) := by
  induction n generalizing s with
  | zero => exact Within.refl _ s
  | succ n ih => exact (decideGroup_within s).trans (ih _)
theorem decideAll_within (s : State) : Within { master := true, order := true } s (decideAll s) :=
  decideGroups_within _ s
theorem masterDecide_within (s : State) : Within { master := true, order := true } s (masterDecide s) :=
  Within.ite (decideGroup_within s) (Within.refl _ s)
theorem postWrite_within (a : Nat) (bs : List Byte) (e h : Nat) (s : State) :
    Within { master := true, order := true } s (postWrite a bs e h s) :=
  (putMaster_within _ s).seq (masterDecide_within _)
theorem postHeld_within (s : State) : Within { master := true, order := true } s (postHeld s) := by
  unfold postHeld
  split
  · split
    · exact Within.ite ((putMaster_within _ s).seq (postWrite_within _ _ _ _ _)) (Within.refl _ s)
    · exact Within.refl _ s
  · exact Within.refl _ s
theorem drainMark_within (s : State) : Within { master := true, order := true } s (drainMark s) := by
  unfold drainMark
  exact Within.ite (Within.refl _ s) ((decideAll_within s).seq (putMaster_within _ _))
theorem invalidateLine_within (s : State) : Within { master := true } s (invalidateLine s) := putMaster_within _ s
theorem formFill_within (a e h : Nat) (i : Bool) (s : State) :
    Within { master := true, order := true } s (formFill a e h i s) :=
  (putMaster_within _ s).seq (formRead_within _ _)
theorem releaseCycle_within (a : Option (List Byte)) (s : State) :
    Within { master := true } s (releaseCycle a s) := putMaster_within _ s
theorem expireHeld_within (s : State) : Within { master := true } s (expireHeld s) := by
  unfold expireHeld
  split
  · exact Within.refl _ s
  · refine Within.trans ?_ (masterFault_within _ _ _)
    split
    · exact putMaster_within _ s
    · exact releaseCycle_within _ s

/-! ## The interrupt unit -/

theorem makeDrain_within (d : PerChan Bool) (m : Bool) (s : State) :
    Within { staging := true, master := true, order := true } s (makeDrain d m s) := by
  have h : Within { staging := true, order := true } s
      (forChans (fun c x => if d.get c then flushDemand c x else x) s) :=
    forChans_within (fun c x => Within.ite (flushDemand_within c x) (Within.refl _ x)) s
  exact Within.ite (h.seq (drainMark_within _)) (h.mono (by decide))

/-- What weighing the lines may touch. -/
abbrev Touch.weighing : Touch :=
  { irq := true, queue := true, stream := true, staging := true, master := true, order := true }

theorem dropDelivery_within (s : State) : Within { irq := true } s (dropDelivery s) := by
  unfold dropDelivery
  split
  · exact Within.ite (Within.refl _ s) (putIrq_within _ s)
  · exact Within.refl _ s
theorem pollSelect_within (s : State) : Within Touch.weighing s (pollSelect s) := by
  unfold pollSelect
  split
  · exact (answerPlain_within _ s).mono (by decide)
  · exact (makeDrain_within _ _ s).seq (putIrq_within _ _)
theorem repoll_within (s : State) : Within Touch.weighing s (repoll s) := by
  unfold repoll
  split
  · exact Within.ite (Within.refl _ s) ((putIrq_within _ s).seq (pollSelect_within _))
  · exact Within.ite ((putIrq_within _ s).seq (pollSelect_within _)) (Within.refl _ s)
theorem answerPoll_within (s : State) :
    Within { irq := true, queue := true, stream := true } s (answerPoll s) := by
  unfold answerPoll
  split
  · refine Within.ite ?_ (Within.refl _ s)
    exact ((putLine_within _ _ s).trans (putIrq_within _ _)).seq (endRequest_within _ _ _ _)
  · exact Within.refl _ s
theorem selectCandidate_within (s : State) :
    Within { irq := true, staging := true, master := true, order := true } s (selectCandidate s) := by
  unfold selectCandidate
  refine Within.ite ?_ (Within.refl _ s)
  split
  · exact Within.refl _ s
  · exact (makeDrain_within _ _ s).seq (putIrq_within _ _)
theorem postReady_within (s : State) : Within { irq := true } s (postReady s) := by
  unfold postReady
  split
  · exact Within.ite (putIrq_within _ s) (Within.refl _ s)
  · exact Within.refl _ s
theorem weighLines_within (s : State) : Within Touch.weighing s (weighLines s) :=
  ((((dropDelivery_within s).seq (repoll_within _) (k := Touch.weighing)).seq (answerPoll_within _)
    (k := Touch.weighing)).seq (selectCandidate_within _) (k := Touch.weighing)).seq (postReady_within _)

/-! ## The arbiter -/

theorem applyClock_within (s : State) : Within { slot := true } s (applyClock s) :=
  Within.ite (putSlot_within _ s) (Within.refl _ s)
theorem beginCycle_within (cyc : Cycle) (s : State) : Within { slot := true } s (beginCycle cyc s) :=
  putSlot_within _ s

/-- What a grant may touch. -/
abbrev Touch.granting : Touch := { slot := true, arb := true, queue := true, dma := true, master := true }

theorem grant_within (s : State) : Within Touch.granting s (grant s) := by
  have hh : Within Touch.granting s (grantHost s) := by
    unfold grantHost
    split
    · exact Within.refl _ s
    · exact ((setPhase_within _ s).seq (putArb_within _ _) (k := Touch.granting)).seq (beginCycle_within _ _)
  unfold grant
  refine Within.ite ((putArb_within _ s).seq (beginCycle_within _ _)) (Within.ite hh ?_)
  split
  · refine Within.ite ?_ ?_
    · exact ((putChan_within _ _ s).seq (putArb_within _ _) (k := Touch.granting)).seq (invalidateLine_within _)
    · exact ((putChan_within _ _ s).seq (putArb_within _ _) (k := Touch.granting)).seq (beginCycle_within _ _)
  · exact Within.ite hh (Within.refl _ s)
theorem kickBus_within (s : State) : Within Touch.granting s (kickBus s) := by
  unfold kickBus
  refine Within.ite (Within.ite ((applyClock_within s).mono (by decide)) ?_) (Within.refl _ s)
  exact (applyClock_within s).seq (grant_within _)
theorem withdrawHost_within (s : State) : Within { arb := true, xfer := true } s (withdrawHost s) := by
  unfold withdrawHost
  split
  · constructor <;> intro h <;> first | rfl | cases h
  · exact Within.refl _ s
theorem turnAtBoundary_within (s : State) : Within { arb := true } s (turnAtBoundary s) := putArb_within _ s
theorem freeBus_within (s : State) : Within { arb := true, slot := true } s (freeBus s) :=
  (putArb_within _ s).seq (putSlot_within _ _)

/-- What the end of a tenure may touch, the grants that follow it among it. -/
abbrev Touch.tenure : Touch :=
  { slot := true, arb := true, queue := true, stream := true, dma := true, staging := true, order := true,
    master := true }

theorem endDmaTenure_within (c : Chan) (s : State) : Within Touch.tenure s (endDmaTenure c s) := by
  unfold endDmaTenure
  have h := ((turnAtBoundary_within s).seq (freeBus_within _) (k := Touch.tenure)).seq (rotateOrder_within c _)
    (k := Touch.tenure)
  dsimp only
  split
  · exact h.seq (enterStopping_within _ _ _)
  · exact (h.seq (putChan_within _ _ _) (k := Touch.tenure)).seq (placeChan_within _ _ _)
  all_goals exact h
theorem endMasterTenure_within (c : Chan) (s : State) : Within Touch.tenure s (endMasterTenure c s) := by
  unfold endMasterTenure
  have h := (((expireHeld_within s).seq (putArb_within { (expireHeld s).arb with masterChan := none, meter := 0 } _)
    (k := Touch.tenure)).seq (freeBus_within _) (k := Touch.tenure)).seq (rotateOrder_within c _) (k := Touch.tenure)
  dsimp only
  split
  · exact h.seq (endStopping_within _ _)
  · exact (h.seq (putChan_within _ _ _) (k := Touch.tenure)).seq (placeChan_within _ _ _)
  all_goals exact h

/-! ## Streams and the host path -/

theorem closePiece_within (s : State) : Within { stream := true, order := true } s (closePiece s) := by
  unfold closePiece
  split
  · split
    · exact (putActive_within _ s).seq (decideWrite_within _ _ _ _)
    · exact Within.refl _ s
  · exact Within.refl _ s
theorem startPiece_within (sp : Spot) (b : Byte) (s : State) : Within { stream := true } s (startPiece sp b s) := by
  unfold startPiece
  split
  · exact putActive_within _ s
  · exact Within.refl _ s
theorem enterByte_within (sp : Spot) (b : Byte) (s : State) :
    Within { stream := true, order := true } s (enterByte sp b s) := by
  unfold enterByte
  split
  · split
    · dsimp only
      refine Within.ite (Within.ite ((putActive_within _ s).seq (closePiece_within _))
        ((putActive_within _ s).mono (by decide))) ?_
      exact (closePiece_within s).seq (startPiece_within _ _ _)
    · exact (startPiece_within _ _ s).mono (by decide)
  · exact Within.refl _ s
theorem enterBytes_within (sps : List Spot) (bs : List Byte) (s : State) :
    Within { stream := true, order := true } s (enterBytes sps bs s) := by
  induction sps generalizing bs s with
  | nil => simp only [enterBytes]; exact Within.refl _ s
  | cons sp sps ih =>
    cases bs with
    | nil => simp only [enterBytes]; exact Within.refl _ s
    | cons b bs => exact (enterByte_within sp b s).trans (ih _ _)

/-- What the end of a stream may touch. -/
abbrev Touch.streaming : Touch := { stream := true, order := true, arb := true, xfer := true, queue := true }

theorem endStream_within (st : Status) (hf : Bool) (s : State) : Within Touch.streaming s (endStream st hf s) := by
  unfold endStream
  split
  · exact Within.refl _ s
  · exact (((withdrawHost_within s).seq (closePiece_within _) (k := Touch.streaming)).seq
      (putActive_within _ _) (k := Touch.streaming)).seq (endWith_within _ _ _ _ _)
theorem endIfWalked_within (s : State) : Within Touch.streaming s (endIfWalked s) := by
  unfold endIfWalked
  split
  · split
    · exact Within.ite (endStream_within _ _ s) (Within.refl _ s)
    · exact Within.refl _ s
  · exact Within.refl _ s
theorem formStreamRead_within (s : State) : Within { stream := true, order := true } s (formStreamRead s) := by
  unfold formStreamRead
  split
  · refine Within.ite ?_ (Within.refl _ s)
    refine Within.seq (m := { stream := true }) ?_ (formRead_within _ _)
    constructor <;> intro h <;> first | rfl | cases h
  · exact Within.refl _ s
theorem endStep_within (x : Xfer) (s : State) : Within Touch.streaming s (endStep x s) := by
  unfold endStep
  split
  · exact Within.refl _ s
  · rename_i r _
    have h1 := putActive_within (some (countStep r x.moved.length x.firstFault)) s
    have h2 : Within Touch.streaming s
        (if r.isIn then enterBytes r.step x.moved (s.putActive (some (countStep r x.moved.length x.firstFault)))
         else s.putActive (some (countStep r x.moved.length x.firstFault))) :=
      Within.ite (h1.seq (enterBytes_within _ _ _)) (h1.mono (by decide))
    exact Within.ite (h2.trans (endStream_within _ _ _)) (Within.ite (h2.trans (endStream_within _ _ _))
      ((h2.seq (putActive_within _ _) (k := Touch.streaming)).trans (endIfWalked_within _)))

/-- What asking for the bus may touch. -/
abbrev Touch.asking : Touch := { xfer := true, slot := true, arb := true, queue := true, dma := true, master := true }

theorem askBus_within (x : Xfer) (s : State) : Within Touch.asking s (askBus x s) := by
  unfold askBus
  refine Within.seq (m := { xfer := true, arb := true }) ?_ (kickBus_within _)
  constructor <;> intro h <;> first | rfl | cases h

/-- What a cycle of the host path may touch. -/
abbrev Touch.hosting : Touch :=
  { xfer := true, slot := true, arb := true, queue := true, dma := true, master := true, stream := true, order := true }

theorem finishSlotRequest_within (x : Xfer) (s : State) :
    Within { queue := true, stream := true } s (finishSlotRequest x s) := by
  unfold finishSlotRequest
  split
  · exact endRequest_within _ _ _ s
  · exact endWith_within _ _ _ _ s
theorem endHostTenure_within (x : Xfer) (s : State) : Within Touch.hosting s (endHostTenure x s) := by
  have h : Within Touch.hosting s { freeBus s with xfer := none } := by
    constructor <;> intro h <;> first | rfl | cases h
  exact (Within.ite (h.seq (endStep_within x _) (k := Touch.hosting))
    (h.seq (finishSlotRequest_within x _) (k := Touch.hosting))).seq (kickBus_within _)
theorem continueHost_within (x : Xfer) (s : State) : Within Touch.hosting s (continueHost x s) := by
  refine Within.ite (endHostTenure_within x s) ?_
  constructor <;> intro h <;> first | rfl | cases h
theorem endHostCycle_within (cyc : Cycle) (bs : List Byte) (s : State) :
    Within Touch.hosting s (endHostCycle cyc bs s) := by
  unfold endHostCycle
  split
  · exact Within.refl _ s
  · exact (putSlot_within _ s).seq (continueHost_within _ _)

/-! ## Units, refresh and the ends of cycles -/

theorem oweSlotFault_within (k : Cause) (b : Bool) (a : Option Nat) (s : State) :
    Within { slot := true } s (oweSlotFault k b a s) := by
  unfold oweSlotFault
  split
  · exact Within.refl _ s
  · exact putSlot_within _ s
theorem recordIf_within (f : Option ChanFault) (a : Nat) (c : Chan) (s : State) :
    Within { dma := true } s (recordIf f a c s) := by
  unfold recordIf
  split
  · exact recordFault_within _ _ _ s
  · exact Within.refl _ s
theorem moveUnit_within (c : Chan) (bs : List Byte) (l : Nat) (s : State) :
    Within { staging := true, order := true } s (moveUnit c bs l s).1 := by
  unfold moveUnit
  split
  · exact placeUnit_within _ _ _ s
  · exact (consumeUnit_within _ s).mono (by decide)
  · exact Within.refl _ s
theorem countUnit_within (s : State) : Within { arb := true } s (countUnit s) := putArb_within _ s
theorem performUnit_within (c : Chan) (cyc : Cycle) (bs : List Byte) (s : State) :
    Within Touch.stopping s (performUnit c cyc bs s) := by
  have h1 := moveUnit_within c bs cyc.addr s
  unfold performUnit
  generalize moveUnit c bs cyc.addr s = p at h1 ⊢
  have h3 := ((h1.seq (recordIf_within p.2 cyc.addr c _) (k := Touch.stopping)).seq
    (putChan_within c ((recordIf p.2 cyc.addr c p.1).chan c).step _) (k := Touch.stopping))
  have h4 := Within.ite (p := cyc.tc = true) (h3.seq (terminalCount_within c _) (k := Touch.stopping)) h3
  have h5 := Within.ite (p := cyc.ready = true) (h4.seq (recordFault_within .ready cyc.addr c _) (k := Touch.stopping)) h4
  have h6 := Within.ite (p := cyc.check = true) (h5.seq (recordFault_within .check cyc.addr c _) (k := Touch.stopping)) h5
  exact Within.ite (h6.trans (stopOnFault_within c _)) h6
theorem continueDma_within (c : Chan) (tc : Bool) (s : State) : Within Touch.tenure s (continueDma c tc s) := by
  refine Within.ite ((putChan_within _ _ s).seq (beginCycle_within _ _)) ?_
  exact (endDmaTenure_within c s).seq (kickBus_within _)
theorem endUnitCycle_within (c : Chan) (cyc : Cycle) (bs : List Byte) (s : State) :
    Within Touch.tenure s (endUnitCycle c cyc bs s) := by
  refine Within.ite ?_ ?_
  · exact ((countUnit_within s).seq (endDmaTenure_within c _) (k := Touch.tenure)).seq (kickBus_within _)
  · exact (((performUnit_within c cyc bs s).seq (countUnit_within _) (k := Touch.tenure)).seq
      (putSlot_within _ _) (k := Touch.tenure)).seq (continueDma_within _ _ _)
theorem endRefreshCycle_within (cyc : Cycle) (s : State) :
    Within { slot := true, arb := true, queue := true, dma := true, master := true, refresh := true } s
      (endRefreshCycle cyc s) := by
  unfold endRefreshCycle
  refine Within.ite (Within.seq (m := { arb := true, slot := true, refresh := true }) ?_ (kickBus_within _)) ?_
  all_goals constructor <;> intro h <;> first | rfl | cases h

/-- What the end of a cycle may touch. -/
abbrev Touch.cycling : Touch :=
  { xfer := true, slot := true, arb := true, queue := true, dma := true, master := true, stream := true,
    order := true, staging := true, refresh := true }

theorem endCycle_within (cyc : Cycle) (d : BusWord) (s : State) : Within Touch.cycling s (endCycle cyc d s) := by
  unfold endCycle
  split
  · exact (endHostCycle_within _ _ s).mono (by decide)
  · exact (endUnitCycle_within _ _ _ s).mono (by decide)
  · exact (endRefreshCycle_within _ s).mono (by decide)
  · exact Within.refl _ s
  · exact Within.refl _ s
theorem lastClock_within (mine : Cycle → Bool) (sense ready : Bool) (d : BusWord) (s : State) :
    Within Touch.cycling s (lastClock mine sense ready d s) := by
  unfold lastClock
  split
  · exact Within.ite (Within.ite (endCycle_within _ _ s) ((putSlot_within _ s).mono (by decide))) (Within.refl _ s)
  · exact Within.refl _ s
theorem releaseReady_within (d : BusWord) (s : State) : Within Touch.cycling s (releaseReady d s) := by
  unfold releaseReady
  split
  · exact Within.ite (endCycle_within _ _ s) (Within.refl _ s)
  · exact Within.refl _ s
theorem faultXfer_within (k : Cause) (s : State) : Within { xfer := true } s (faultXfer k s) := by
  constructor <;> intro h <;> first | rfl | cases h
theorem expireCycle_within (cyc : Cycle) (s : State) : Within Touch.cycling s (expireCycle cyc s) := by
  unfold expireCycle
  dsimp only
  split
  · exact (faultXfer_within _ s).seq (endCycle_within _ _ _)
  · exact endCycle_within _ _ s
  · exact (oweSlotFault_within _ _ _ s).seq (endCycle_within _ _ _)
  · exact Within.refl _ s
  · exact Within.refl _ s
theorem readyExpiry_within (s : State) : Within Touch.cycling s (readyExpiry s) := by
  unfold readyExpiry
  split
  · exact Within.ite (expireCycle_within _ s) (Within.refl _ s)
  · exact (expireHeld_within s).mono (by decide)
theorem markCheck_within (s : State) : Within { slot := true } s (markCheck s) := putSlot_within _ s
theorem checkHost_within (s : State) : Within { xfer := true, slot := true } s (checkHost s) := by
  unfold checkHost
  split
  · exact Within.ite (Within.refl _ s) ((faultXfer_within _ s).seq (markCheck_within _))
  · exact Within.refl _ s
theorem checkHostBetween_within (s : State) : Within Touch.hosting s (checkHostBetween s) := by
  unfold checkHostBetween
  split
  · exact Within.refl _ s
  · refine Within.ite (endHostTenure_within _ s) ?_
    constructor <;> intro h <;> first | rfl | cases h
theorem checkUnitBetween_within (c : Chan) (a : Nat) (s : State) :
    Within Touch.tenure s (checkUnitBetween c a s) := by
  have h := (unitFault_within .check a c s).mono (n := Touch.tenure) (by decide)
  exact Within.ite ((h.seq (endDmaTenure_within c _) (k := Touch.tenure)).seq (kickBus_within _)) h
theorem chargeCheck_within (b : Bool) (s : State) : Within Touch.cycling s (chargeCheck b s) := by
  unfold chargeCheck
  dsimp only
  split
  · exact Within.ite ((checkHostBetween_within s).mono (by decide)) ((checkHost_within s).mono (by decide))
  · exact Within.ite ((checkUnitBetween_within _ _ s).mono (by decide)) ((markCheck_within s).mono (by decide))
  · split
    · exact (unitFault_within _ _ _ s).mono (by decide)
    · exact Within.refl _ s
  · exact (oweSlotFault_within _ _ _ s).mono (by decide)
  · exact (oweSlotFault_within _ _ _ s).mono (by decide)
theorem checkEdge_within (b : Bool) (s : State) : Within Touch.cycling s (checkEdge b s) :=
  Within.ite (Within.refl _ s) ((putSlot_within _ s).seq (chargeCheck_within b _))
theorem refreshExpiry_within (s : State) :
    Within { slot := true, arb := true, queue := true, dma := true, master := true, refresh := true } s
      (refreshExpiry s) := by
  unfold refreshExpiry
  refine Within.ite (Within.ite (Within.seq (m := { refresh := true }) ?_ (kickBus_within _)) (Within.ite ?_ ?_))
    (Within.refl _ s)
  all_goals constructor <;> intro h <;> first | rfl | cases h
theorem masterLong_within (s : State) : Within { master := true, arb := true } s (masterLong s) :=
  (masterFault_within _ _ s).seq (putArb_within _ _)
theorem masterHoldExpiry_within (s : State) : Within { master := true, arb := true } s (masterHoldExpiry s) :=
  Within.ite ((putArb_within _ s).seq (masterLong_within _)) (Within.refl _ s)
theorem ageExpiry_within (c : Chan) (s : State) : Within { staging := true, order := true } s (ageExpiry c s) :=
  Within.ite (flushDemand_within c s) (Within.refl _ s)


/-! ## One microsecond -/

theorem countTimers_within (s : State) :
    Within { slot := true, arb := true, refresh := true, staging := true, master := true } s (countTimers s) := by
  constructor <;> intro h <;> first | rfl | cases h
theorem heldDue_within (s : State) : Within { master := true } s (heldDue s) :=
  Within.ite (expireHeld_within s) (Within.refl _ s)
theorem meterDue_within (s : State) : Within { master := true, arb := true } s (meterDue s) :=
  Within.ite (masterHoldExpiry_within s) (Within.refl _ s)
theorem ageDue_within (c : Chan) (s : State) : Within { staging := true, order := true } s (ageDue c s) :=
  Within.ite (ageExpiry_within c s) (Within.refl _ s)

/-- A channel's open run counts one microsecond. -/
@[simp] theorem countTimers_stage (s : State) (c : Chan) : (countTimers s).stage c = (s.stage c).aged := by cases c <;> rfl
/-- With no open run nothing of the staging counts. -/
theorem Staging.aged_of_none {st : Staging} (h : st.opened = none) : st.aged = st := by
  cases st; cases h; rfl

end Sys2Proof.Machine
end

