-- ==== Sys2Proof/Laws/State.lean ====
section
/-! SUPPORT. What each named update of the state leaves in each block: one lemma per block per update, and what is read back from
a channel, a staging buffer or a line after a write to one. -/

namespace Sys2Proof.Machine

set_option Elab.async false

/-! ### State.putChan -/

@[simp] theorem State.putChan_pending (s : State) (c : Chan) (v : Channel) : (s.putChan c v).pending = s.pending := rfl
@[simp] theorem State.putChan_slot (s : State) (c : Chan) (v : Channel) : (s.putChan c v).slot = s.slot := rfl
@[simp] theorem State.putChan_xfer (s : State) (c : Chan) (v : Channel) : (s.putChan c v).xfer = s.xfer := rfl
@[simp] theorem State.putChan_windows (s : State) (c : Chan) (v : Channel) : (s.putChan c v).windows = s.windows := rfl
@[simp] theorem State.putChan_queue (s : State) (c : Chan) (v : Channel) : (s.putChan c v).queue = s.queue := rfl
@[simp] theorem State.putChan_arb (s : State) (c : Chan) (v : Channel) : (s.putChan c v).arb = s.arb := rfl
@[simp] theorem State.putChan_refresh (s : State) (c : Chan) (v : Channel) : (s.putChan c v).refresh = s.refresh := rfl
@[simp] theorem State.putChan_dma (s : State) (c : Chan) (v : Channel) : (s.putChan c v).dma = { s.dma with chans := s.dma.chans.put c v } := rfl
@[simp] theorem State.putChan_map (s : State) (c : Chan) (v : Channel) : (s.putChan c v).map = s.map := rfl
@[simp] theorem State.putChan_staging (s : State) (c : Chan) (v : Channel) : (s.putChan c v).staging = s.staging := rfl
@[simp] theorem State.putChan_order (s : State) (c : Chan) (v : Channel) : (s.putChan c v).order = s.order := rfl
@[simp] theorem State.putChan_master (s : State) (c : Chan) (v : Channel) : (s.putChan c v).master = s.master := rfl
@[simp] theorem State.putChan_irq (s : State) (c : Chan) (v : Channel) : (s.putChan c v).irq = s.irq := rfl
@[simp] theorem State.putChan_segments (s : State) (c : Chan) (v : Channel) : (s.putChan c v).segments = s.segments := rfl
@[simp] theorem State.putChan_stream (s : State) (c : Chan) (v : Channel) : (s.putChan c v).stream = s.stream := rfl
@[simp] theorem State.putChan_ret (s : State) (c : Chan) (v : Channel) : (s.putChan c v).ret = s.ret := rfl
@[simp] theorem State.putChan_intake (s : State) (c : Chan) (v : Channel) : (s.putChan c v).intake = s.intake := rfl
@[simp] theorem State.putChan_settings (s : State) (c : Chan) (v : Channel) : (s.putChan c v).settings = s.settings := rfl
@[simp] theorem State.putChan_pins (s : State) (c : Chan) (v : Channel) : (s.putChan c v).pins = s.pins := rfl
@[simp] theorem State.putChan_host (s : State) (c : Chan) (v : Channel) : (s.putChan c v).host = s.host := rfl

/-! ### State.putStage -/

@[simp] theorem State.putStage_pending (s : State) (c : Chan) (v : Staging) : (s.putStage c v).pending = s.pending := rfl
@[simp] theorem State.putStage_slot (s : State) (c : Chan) (v : Staging) : (s.putStage c v).slot = s.slot := rfl
@[simp] theorem State.putStage_xfer (s : State) (c : Chan) (v : Staging) : (s.putStage c v).xfer = s.xfer := rfl
@[simp] theorem State.putStage_windows (s : State) (c : Chan) (v : Staging) : (s.putStage c v).windows = s.windows := rfl
@[simp] theorem State.putStage_queue (s : State) (c : Chan) (v : Staging) : (s.putStage c v).queue = s.queue := rfl
@[simp] theorem State.putStage_arb (s : State) (c : Chan) (v : Staging) : (s.putStage c v).arb = s.arb := rfl
@[simp] theorem State.putStage_refresh (s : State) (c : Chan) (v : Staging) : (s.putStage c v).refresh = s.refresh := rfl
@[simp] theorem State.putStage_dma (s : State) (c : Chan) (v : Staging) : (s.putStage c v).dma = s.dma := rfl
@[simp] theorem State.putStage_map (s : State) (c : Chan) (v : Staging) : (s.putStage c v).map = s.map := rfl
@[simp] theorem State.putStage_staging (s : State) (c : Chan) (v : Staging) : (s.putStage c v).staging = s.staging.put c v := rfl
@[simp] theorem State.putStage_order (s : State) (c : Chan) (v : Staging) : (s.putStage c v).order = s.order := rfl
@[simp] theorem State.putStage_master (s : State) (c : Chan) (v : Staging) : (s.putStage c v).master = s.master := rfl
@[simp] theorem State.putStage_irq (s : State) (c : Chan) (v : Staging) : (s.putStage c v).irq = s.irq := rfl
@[simp] theorem State.putStage_segments (s : State) (c : Chan) (v : Staging) : (s.putStage c v).segments = s.segments := rfl
@[simp] theorem State.putStage_stream (s : State) (c : Chan) (v : Staging) : (s.putStage c v).stream = s.stream := rfl
@[simp] theorem State.putStage_ret (s : State) (c : Chan) (v : Staging) : (s.putStage c v).ret = s.ret := rfl
@[simp] theorem State.putStage_intake (s : State) (c : Chan) (v : Staging) : (s.putStage c v).intake = s.intake := rfl
@[simp] theorem State.putStage_settings (s : State) (c : Chan) (v : Staging) : (s.putStage c v).settings = s.settings := rfl
@[simp] theorem State.putStage_pins (s : State) (c : Chan) (v : Staging) : (s.putStage c v).pins = s.pins := rfl
@[simp] theorem State.putStage_host (s : State) (c : Chan) (v : Staging) : (s.putStage c v).host = s.host := rfl

/-! ### State.putLine -/

@[simp] theorem State.putLine_pending (s : State) (l : Line) (v : LineRec) : (s.putLine l v).pending = s.pending := rfl
@[simp] theorem State.putLine_slot (s : State) (l : Line) (v : LineRec) : (s.putLine l v).slot = s.slot := rfl
@[simp] theorem State.putLine_xfer (s : State) (l : Line) (v : LineRec) : (s.putLine l v).xfer = s.xfer := rfl
@[simp] theorem State.putLine_windows (s : State) (l : Line) (v : LineRec) : (s.putLine l v).windows = s.windows := rfl
@[simp] theorem State.putLine_queue (s : State) (l : Line) (v : LineRec) : (s.putLine l v).queue = s.queue := rfl
@[simp] theorem State.putLine_arb (s : State) (l : Line) (v : LineRec) : (s.putLine l v).arb = s.arb := rfl
@[simp] theorem State.putLine_refresh (s : State) (l : Line) (v : LineRec) : (s.putLine l v).refresh = s.refresh := rfl
@[simp] theorem State.putLine_dma (s : State) (l : Line) (v : LineRec) : (s.putLine l v).dma = s.dma := rfl
@[simp] theorem State.putLine_map (s : State) (l : Line) (v : LineRec) : (s.putLine l v).map = s.map := rfl
@[simp] theorem State.putLine_staging (s : State) (l : Line) (v : LineRec) : (s.putLine l v).staging = s.staging := rfl
@[simp] theorem State.putLine_order (s : State) (l : Line) (v : LineRec) : (s.putLine l v).order = s.order := rfl
@[simp] theorem State.putLine_master (s : State) (l : Line) (v : LineRec) : (s.putLine l v).master = s.master := rfl
@[simp] theorem State.putLine_irq (s : State) (l : Line) (v : LineRec) : (s.putLine l v).irq = { s.irq with lines := s.irq.lines.put l v } := rfl
@[simp] theorem State.putLine_segments (s : State) (l : Line) (v : LineRec) : (s.putLine l v).segments = s.segments := rfl
@[simp] theorem State.putLine_stream (s : State) (l : Line) (v : LineRec) : (s.putLine l v).stream = s.stream := rfl
@[simp] theorem State.putLine_ret (s : State) (l : Line) (v : LineRec) : (s.putLine l v).ret = s.ret := rfl
@[simp] theorem State.putLine_intake (s : State) (l : Line) (v : LineRec) : (s.putLine l v).intake = s.intake := rfl
@[simp] theorem State.putLine_settings (s : State) (l : Line) (v : LineRec) : (s.putLine l v).settings = s.settings := rfl
@[simp] theorem State.putLine_pins (s : State) (l : Line) (v : LineRec) : (s.putLine l v).pins = s.pins := rfl
@[simp] theorem State.putLine_host (s : State) (l : Line) (v : LineRec) : (s.putLine l v).host = s.host := rfl

/-! ### State.putQueue -/

@[simp] theorem State.putQueue_pending (s : State) (v : Queue) : (s.putQueue v).pending = s.pending := rfl
@[simp] theorem State.putQueue_slot (s : State) (v : Queue) : (s.putQueue v).slot = s.slot := rfl
@[simp] theorem State.putQueue_xfer (s : State) (v : Queue) : (s.putQueue v).xfer = s.xfer := rfl
@[simp] theorem State.putQueue_windows (s : State) (v : Queue) : (s.putQueue v).windows = s.windows := rfl
@[simp] theorem State.putQueue_queue (s : State) (v : Queue) : (s.putQueue v).queue = v := rfl
@[simp] theorem State.putQueue_arb (s : State) (v : Queue) : (s.putQueue v).arb = s.arb := rfl
@[simp] theorem State.putQueue_refresh (s : State) (v : Queue) : (s.putQueue v).refresh = s.refresh := rfl
@[simp] theorem State.putQueue_dma (s : State) (v : Queue) : (s.putQueue v).dma = s.dma := rfl
@[simp] theorem State.putQueue_map (s : State) (v : Queue) : (s.putQueue v).map = s.map := rfl
@[simp] theorem State.putQueue_staging (s : State) (v : Queue) : (s.putQueue v).staging = s.staging := rfl
@[simp] theorem State.putQueue_order (s : State) (v : Queue) : (s.putQueue v).order = s.order := rfl
@[simp] theorem State.putQueue_master (s : State) (v : Queue) : (s.putQueue v).master = s.master := rfl
@[simp] theorem State.putQueue_irq (s : State) (v : Queue) : (s.putQueue v).irq = s.irq := rfl
@[simp] theorem State.putQueue_segments (s : State) (v : Queue) : (s.putQueue v).segments = s.segments := rfl
@[simp] theorem State.putQueue_stream (s : State) (v : Queue) : (s.putQueue v).stream = s.stream := rfl
@[simp] theorem State.putQueue_ret (s : State) (v : Queue) : (s.putQueue v).ret = s.ret := rfl
@[simp] theorem State.putQueue_intake (s : State) (v : Queue) : (s.putQueue v).intake = s.intake := rfl
@[simp] theorem State.putQueue_settings (s : State) (v : Queue) : (s.putQueue v).settings = s.settings := rfl
@[simp] theorem State.putQueue_pins (s : State) (v : Queue) : (s.putQueue v).pins = s.pins := rfl
@[simp] theorem State.putQueue_host (s : State) (v : Queue) : (s.putQueue v).host = s.host := rfl

/-! ### State.putSlot -/

@[simp] theorem State.putSlot_pending (s : State) (v : SlotEngine) : (s.putSlot v).pending = s.pending := rfl
@[simp] theorem State.putSlot_slot (s : State) (v : SlotEngine) : (s.putSlot v).slot = v := rfl
@[simp] theorem State.putSlot_xfer (s : State) (v : SlotEngine) : (s.putSlot v).xfer = s.xfer := rfl
@[simp] theorem State.putSlot_windows (s : State) (v : SlotEngine) : (s.putSlot v).windows = s.windows := rfl
@[simp] theorem State.putSlot_queue (s : State) (v : SlotEngine) : (s.putSlot v).queue = s.queue := rfl
@[simp] theorem State.putSlot_arb (s : State) (v : SlotEngine) : (s.putSlot v).arb = s.arb := rfl
@[simp] theorem State.putSlot_refresh (s : State) (v : SlotEngine) : (s.putSlot v).refresh = s.refresh := rfl
@[simp] theorem State.putSlot_dma (s : State) (v : SlotEngine) : (s.putSlot v).dma = s.dma := rfl
@[simp] theorem State.putSlot_map (s : State) (v : SlotEngine) : (s.putSlot v).map = s.map := rfl
@[simp] theorem State.putSlot_staging (s : State) (v : SlotEngine) : (s.putSlot v).staging = s.staging := rfl
@[simp] theorem State.putSlot_order (s : State) (v : SlotEngine) : (s.putSlot v).order = s.order := rfl
@[simp] theorem State.putSlot_master (s : State) (v : SlotEngine) : (s.putSlot v).master = s.master := rfl
@[simp] theorem State.putSlot_irq (s : State) (v : SlotEngine) : (s.putSlot v).irq = s.irq := rfl
@[simp] theorem State.putSlot_segments (s : State) (v : SlotEngine) : (s.putSlot v).segments = s.segments := rfl
@[simp] theorem State.putSlot_stream (s : State) (v : SlotEngine) : (s.putSlot v).stream = s.stream := rfl
@[simp] theorem State.putSlot_ret (s : State) (v : SlotEngine) : (s.putSlot v).ret = s.ret := rfl
@[simp] theorem State.putSlot_intake (s : State) (v : SlotEngine) : (s.putSlot v).intake = s.intake := rfl
@[simp] theorem State.putSlot_settings (s : State) (v : SlotEngine) : (s.putSlot v).settings = s.settings := rfl
@[simp] theorem State.putSlot_pins (s : State) (v : SlotEngine) : (s.putSlot v).pins = s.pins := rfl
@[simp] theorem State.putSlot_host (s : State) (v : SlotEngine) : (s.putSlot v).host = s.host := rfl

/-! ### State.putArb -/

@[simp] theorem State.putArb_pending (s : State) (v : Arbiter) : (s.putArb v).pending = s.pending := rfl
@[simp] theorem State.putArb_slot (s : State) (v : Arbiter) : (s.putArb v).slot = s.slot := rfl
@[simp] theorem State.putArb_xfer (s : State) (v : Arbiter) : (s.putArb v).xfer = s.xfer := rfl
@[simp] theorem State.putArb_windows (s : State) (v : Arbiter) : (s.putArb v).windows = s.windows := rfl
@[simp] theorem State.putArb_queue (s : State) (v : Arbiter) : (s.putArb v).queue = s.queue := rfl
@[simp] theorem State.putArb_arb (s : State) (v : Arbiter) : (s.putArb v).arb = v := rfl
@[simp] theorem State.putArb_refresh (s : State) (v : Arbiter) : (s.putArb v).refresh = s.refresh := rfl
@[simp] theorem State.putArb_dma (s : State) (v : Arbiter) : (s.putArb v).dma = s.dma := rfl
@[simp] theorem State.putArb_map (s : State) (v : Arbiter) : (s.putArb v).map = s.map := rfl
@[simp] theorem State.putArb_staging (s : State) (v : Arbiter) : (s.putArb v).staging = s.staging := rfl
@[simp] theorem State.putArb_order (s : State) (v : Arbiter) : (s.putArb v).order = s.order := rfl
@[simp] theorem State.putArb_master (s : State) (v : Arbiter) : (s.putArb v).master = s.master := rfl
@[simp] theorem State.putArb_irq (s : State) (v : Arbiter) : (s.putArb v).irq = s.irq := rfl
@[simp] theorem State.putArb_segments (s : State) (v : Arbiter) : (s.putArb v).segments = s.segments := rfl
@[simp] theorem State.putArb_stream (s : State) (v : Arbiter) : (s.putArb v).stream = s.stream := rfl
@[simp] theorem State.putArb_ret (s : State) (v : Arbiter) : (s.putArb v).ret = s.ret := rfl
@[simp] theorem State.putArb_intake (s : State) (v : Arbiter) : (s.putArb v).intake = s.intake := rfl
@[simp] theorem State.putArb_settings (s : State) (v : Arbiter) : (s.putArb v).settings = s.settings := rfl
@[simp] theorem State.putArb_pins (s : State) (v : Arbiter) : (s.putArb v).pins = s.pins := rfl
@[simp] theorem State.putArb_host (s : State) (v : Arbiter) : (s.putArb v).host = s.host := rfl

/-! ### State.putMaster -/

@[simp] theorem State.putMaster_pending (s : State) (v : MasterPort) : (s.putMaster v).pending = s.pending := rfl
@[simp] theorem State.putMaster_slot (s : State) (v : MasterPort) : (s.putMaster v).slot = s.slot := rfl
@[simp] theorem State.putMaster_xfer (s : State) (v : MasterPort) : (s.putMaster v).xfer = s.xfer := rfl
@[simp] theorem State.putMaster_windows (s : State) (v : MasterPort) : (s.putMaster v).windows = s.windows := rfl
@[simp] theorem State.putMaster_queue (s : State) (v : MasterPort) : (s.putMaster v).queue = s.queue := rfl
@[simp] theorem State.putMaster_arb (s : State) (v : MasterPort) : (s.putMaster v).arb = s.arb := rfl
@[simp] theorem State.putMaster_refresh (s : State) (v : MasterPort) : (s.putMaster v).refresh = s.refresh := rfl
@[simp] theorem State.putMaster_dma (s : State) (v : MasterPort) : (s.putMaster v).dma = s.dma := rfl
@[simp] theorem State.putMaster_map (s : State) (v : MasterPort) : (s.putMaster v).map = s.map := rfl
@[simp] theorem State.putMaster_staging (s : State) (v : MasterPort) : (s.putMaster v).staging = s.staging := rfl
@[simp] theorem State.putMaster_order (s : State) (v : MasterPort) : (s.putMaster v).order = s.order := rfl
@[simp] theorem State.putMaster_master (s : State) (v : MasterPort) : (s.putMaster v).master = v := rfl
@[simp] theorem State.putMaster_irq (s : State) (v : MasterPort) : (s.putMaster v).irq = s.irq := rfl
@[simp] theorem State.putMaster_segments (s : State) (v : MasterPort) : (s.putMaster v).segments = s.segments := rfl
@[simp] theorem State.putMaster_stream (s : State) (v : MasterPort) : (s.putMaster v).stream = s.stream := rfl
@[simp] theorem State.putMaster_ret (s : State) (v : MasterPort) : (s.putMaster v).ret = s.ret := rfl
@[simp] theorem State.putMaster_intake (s : State) (v : MasterPort) : (s.putMaster v).intake = s.intake := rfl
@[simp] theorem State.putMaster_settings (s : State) (v : MasterPort) : (s.putMaster v).settings = s.settings := rfl
@[simp] theorem State.putMaster_pins (s : State) (v : MasterPort) : (s.putMaster v).pins = s.pins := rfl
@[simp] theorem State.putMaster_host (s : State) (v : MasterPort) : (s.putMaster v).host = s.host := rfl

/-! ### State.putIrq -/

@[simp] theorem State.putIrq_pending (s : State) (v : Interrupts) : (s.putIrq v).pending = s.pending := rfl
@[simp] theorem State.putIrq_slot (s : State) (v : Interrupts) : (s.putIrq v).slot = s.slot := rfl
@[simp] theorem State.putIrq_xfer (s : State) (v : Interrupts) : (s.putIrq v).xfer = s.xfer := rfl
@[simp] theorem State.putIrq_windows (s : State) (v : Interrupts) : (s.putIrq v).windows = s.windows := rfl
@[simp] theorem State.putIrq_queue (s : State) (v : Interrupts) : (s.putIrq v).queue = s.queue := rfl
@[simp] theorem State.putIrq_arb (s : State) (v : Interrupts) : (s.putIrq v).arb = s.arb := rfl
@[simp] theorem State.putIrq_refresh (s : State) (v : Interrupts) : (s.putIrq v).refresh = s.refresh := rfl
@[simp] theorem State.putIrq_dma (s : State) (v : Interrupts) : (s.putIrq v).dma = s.dma := rfl
@[simp] theorem State.putIrq_map (s : State) (v : Interrupts) : (s.putIrq v).map = s.map := rfl
@[simp] theorem State.putIrq_staging (s : State) (v : Interrupts) : (s.putIrq v).staging = s.staging := rfl
@[simp] theorem State.putIrq_order (s : State) (v : Interrupts) : (s.putIrq v).order = s.order := rfl
@[simp] theorem State.putIrq_master (s : State) (v : Interrupts) : (s.putIrq v).master = s.master := rfl
@[simp] theorem State.putIrq_irq (s : State) (v : Interrupts) : (s.putIrq v).irq = v := rfl
@[simp] theorem State.putIrq_segments (s : State) (v : Interrupts) : (s.putIrq v).segments = s.segments := rfl
@[simp] theorem State.putIrq_stream (s : State) (v : Interrupts) : (s.putIrq v).stream = s.stream := rfl
@[simp] theorem State.putIrq_ret (s : State) (v : Interrupts) : (s.putIrq v).ret = s.ret := rfl
@[simp] theorem State.putIrq_intake (s : State) (v : Interrupts) : (s.putIrq v).intake = s.intake := rfl
@[simp] theorem State.putIrq_settings (s : State) (v : Interrupts) : (s.putIrq v).settings = s.settings := rfl
@[simp] theorem State.putIrq_pins (s : State) (v : Interrupts) : (s.putIrq v).pins = s.pins := rfl
@[simp] theorem State.putIrq_host (s : State) (v : Interrupts) : (s.putIrq v).host = s.host := rfl

/-! ### State.putOrder -/

@[simp] theorem State.putOrder_pending (s : State) (v : List OrderItem) : (s.putOrder v).pending = s.pending := rfl
@[simp] theorem State.putOrder_slot (s : State) (v : List OrderItem) : (s.putOrder v).slot = s.slot := rfl
@[simp] theorem State.putOrder_xfer (s : State) (v : List OrderItem) : (s.putOrder v).xfer = s.xfer := rfl
@[simp] theorem State.putOrder_windows (s : State) (v : List OrderItem) : (s.putOrder v).windows = s.windows := rfl
@[simp] theorem State.putOrder_queue (s : State) (v : List OrderItem) : (s.putOrder v).queue = s.queue := rfl
@[simp] theorem State.putOrder_arb (s : State) (v : List OrderItem) : (s.putOrder v).arb = s.arb := rfl
@[simp] theorem State.putOrder_refresh (s : State) (v : List OrderItem) : (s.putOrder v).refresh = s.refresh := rfl
@[simp] theorem State.putOrder_dma (s : State) (v : List OrderItem) : (s.putOrder v).dma = s.dma := rfl
@[simp] theorem State.putOrder_map (s : State) (v : List OrderItem) : (s.putOrder v).map = s.map := rfl
@[simp] theorem State.putOrder_staging (s : State) (v : List OrderItem) : (s.putOrder v).staging = s.staging := rfl
@[simp] theorem State.putOrder_order (s : State) (v : List OrderItem) : (s.putOrder v).order = v := rfl
@[simp] theorem State.putOrder_master (s : State) (v : List OrderItem) : (s.putOrder v).master = s.master := rfl
@[simp] theorem State.putOrder_irq (s : State) (v : List OrderItem) : (s.putOrder v).irq = s.irq := rfl
@[simp] theorem State.putOrder_segments (s : State) (v : List OrderItem) : (s.putOrder v).segments = s.segments := rfl
@[simp] theorem State.putOrder_stream (s : State) (v : List OrderItem) : (s.putOrder v).stream = s.stream := rfl
@[simp] theorem State.putOrder_ret (s : State) (v : List OrderItem) : (s.putOrder v).ret = s.ret := rfl
@[simp] theorem State.putOrder_intake (s : State) (v : List OrderItem) : (s.putOrder v).intake = s.intake := rfl
@[simp] theorem State.putOrder_settings (s : State) (v : List OrderItem) : (s.putOrder v).settings = s.settings := rfl
@[simp] theorem State.putOrder_pins (s : State) (v : List OrderItem) : (s.putOrder v).pins = s.pins := rfl
@[simp] theorem State.putOrder_host (s : State) (v : List OrderItem) : (s.putOrder v).host = s.host := rfl

/-! ### State.putActive -/

@[simp] theorem State.putActive_pending (s : State) (v : Option StreamRec) : (s.putActive v).pending = s.pending := rfl
@[simp] theorem State.putActive_slot (s : State) (v : Option StreamRec) : (s.putActive v).slot = s.slot := rfl
@[simp] theorem State.putActive_xfer (s : State) (v : Option StreamRec) : (s.putActive v).xfer = s.xfer := rfl
@[simp] theorem State.putActive_windows (s : State) (v : Option StreamRec) : (s.putActive v).windows = s.windows := rfl
@[simp] theorem State.putActive_queue (s : State) (v : Option StreamRec) : (s.putActive v).queue = s.queue := rfl
@[simp] theorem State.putActive_arb (s : State) (v : Option StreamRec) : (s.putActive v).arb = s.arb := rfl
@[simp] theorem State.putActive_refresh (s : State) (v : Option StreamRec) : (s.putActive v).refresh = s.refresh := rfl
@[simp] theorem State.putActive_dma (s : State) (v : Option StreamRec) : (s.putActive v).dma = s.dma := rfl
@[simp] theorem State.putActive_map (s : State) (v : Option StreamRec) : (s.putActive v).map = s.map := rfl
@[simp] theorem State.putActive_staging (s : State) (v : Option StreamRec) : (s.putActive v).staging = s.staging := rfl
@[simp] theorem State.putActive_order (s : State) (v : Option StreamRec) : (s.putActive v).order = s.order := rfl
@[simp] theorem State.putActive_master (s : State) (v : Option StreamRec) : (s.putActive v).master = s.master := rfl
@[simp] theorem State.putActive_irq (s : State) (v : Option StreamRec) : (s.putActive v).irq = s.irq := rfl
@[simp] theorem State.putActive_segments (s : State) (v : Option StreamRec) : (s.putActive v).segments = s.segments := rfl
@[simp] theorem State.putActive_stream (s : State) (v : Option StreamRec) : (s.putActive v).stream = { s.stream with active := v } := rfl
@[simp] theorem State.putActive_ret (s : State) (v : Option StreamRec) : (s.putActive v).ret = s.ret := rfl
@[simp] theorem State.putActive_intake (s : State) (v : Option StreamRec) : (s.putActive v).intake = s.intake := rfl
@[simp] theorem State.putActive_settings (s : State) (v : Option StreamRec) : (s.putActive v).settings = s.settings := rfl
@[simp] theorem State.putActive_pins (s : State) (v : Option StreamRec) : (s.putActive v).pins = s.pins := rfl
@[simp] theorem State.putActive_host (s : State) (v : Option StreamRec) : (s.putActive v).host = s.host := rfl

/-! ### One of each -/

@[simp] theorem PerChan.get_put {α : Type} (p : PerChan α) (c d : Chan) (v : α) :
    (p.put c v).get d = if d = c then v else p.get d := by cases c <;> cases d <;> rfl
@[simp] theorem PerLine.get_put {α : Type} (p : PerLine α) (l m : Line) (v : α) :
    (p.put l v).get m = if m = l then v else p.get m := by cases l <;> cases m <;> rfl
@[simp] theorem PerChan.get_const {α : Type} (v : α) (c : Chan) : (PerChan.const v).get c = v := by cases c <;> rfl
@[simp] theorem PerLine.get_const {α : Type} (v : α) (l : Line) : (PerLine.const v).get l = v := by cases l <;> rfl
@[simp] theorem PerChan.get_ofFn {α : Type} (f : Chan → α) (c : Chan) : (PerChan.ofFn f).get c = f c := by cases c <;> rfl
@[simp] theorem PerLine.get_ofFn {α : Type} (f : Line → α) (l : Line) : (PerLine.ofFn f).get l = f l := by cases l <;> rfl

/-- Only the channel written reads differently. -/
@[simp] theorem State.putChan_chan (s : State) (c d : Chan) (v : Channel) :
    (s.putChan c v).chan d = if d = c then v else s.chan d := PerChan.get_put _ c d v
@[simp] theorem State.putStage_stage (s : State) (c d : Chan) (v : Staging) :
    (s.putStage c v).stage d = if d = c then v else s.stage d := PerChan.get_put _ c d v
@[simp] theorem State.putLine_lineRec (s : State) (l m : Line) (v : LineRec) :
    (s.putLine l v).lineRec m = if m = l then v else s.lineRec m := PerLine.get_put _ l m v

end Sys2Proof.Machine
end

