-- ==== Sys2Proof/Laws/Causes.lean ====
section
/-! SUPPORT. What marking an event of the request in flight can do (R50, log entry 41): it leaves everything the event did, and adds to
the causes of the records the event touched. -/

namespace Sys2Proof.Machine

@[simp] theorem Channel.blame_state (old ch : Channel) (n : Nat) : (Channel.blame ch n old).state = old.state := by
  unfold Channel.blame; split <;> rfl
@[simp] theorem Channel.blame_mask (old ch : Channel) (n : Nat) : (Channel.blame ch n old).mask = old.mask := by
  unfold Channel.blame; split <;> rfl

/-- A channel that an event leaves its owed faults is as the event left it; one that gains some has the request's number besides. -/
theorem causing_chan (event : State → State) (s : State) (c : Chan) :
    (causing event s).chan c =
      if ((event s).chan c).owedFaults = (s.chan c).owedFaults then (event s).chan c
      else { (event s).chan c with faultCauses := ((event s).chan c).faultCauses ++ [s.queue.number] } := by
  simp [causing, State.chan, Channel.blame]

@[simp] theorem causing_lineRec (event : State → State) (s : State) (l : Line) :
    (causing event s).lineRec l = (event s).lineRec l := rfl
@[simp] theorem causing_queue (event : State → State) (s : State) : (causing event s).queue = (event s).queue := rfl
@[simp] theorem causing_staging (event : State → State) (s : State) : (causing event s).staging = (event s).staging := rfl
@[simp] theorem causing_order (event : State → State) (s : State) : (causing event s).order = (event s).order := rfl
@[simp] theorem causing_settings (event : State → State) (s : State) : (causing event s).settings = (event s).settings := rfl
@[simp] theorem causing_slot (event : State → State) (s : State) : (causing event s).slot = (event s).slot := rfl
@[simp] theorem causing_arb (event : State → State) (s : State) : (causing event s).arb = (event s).arb := rfl
@[simp] theorem causing_refresh (event : State → State) (s : State) : (causing event s).refresh = (event s).refresh := rfl
@[simp] theorem causing_pins (event : State → State) (s : State) : (causing event s).pins = (event s).pins := rfl
@[simp] theorem causing_dma_order (event : State → State) (s : State) : (causing event s).dma.order = (event s).dma.order := rfl

/-- The candidate after an event of the request in flight: a new one has the request's number. -/
theorem causing_delivery (event : State → State) (s : State) :
    (causing event s).irq.delivery = (event s).irq.delivery.map (fun d =>
      if s.irq.delivery.map Delivery.line = some d.line then d else { d with causes := d.causes ++ [s.queue.number] }) := rfl

/-- The owed MASTER FAULT after an event of the request in flight: one that differs has the request's number besides. -/
theorem causing_owedFault (event : State → State) (s : State) :
    (causing event s).master.owedFault = (event s).master.owedFault.map (fun f =>
      if s.master.owedFault = some f then f else { f with causes := f.causes ++ [s.queue.number] }) := rfl

end Sys2Proof.Machine
end

