-- ==== Sys2Proof/Laws/Memory.lean ====
section
/-! SUPPORT. The laws of host memory as the board has written it: reading after a write, and the canonical form kept. -/

namespace Sys2Proof.Machine

/-- The byte written is read back, and every other address reads as before. -/
theorem readByte_writeByte (m : List Host.Cell) (n k : Nat) (v : Byte) (h : memWf m = true) :
    readByte (writeByte m n v) k = if k = n then some v else readByte m k := by
  induction m with
  | nil => simp only [writeByte, readByte]; split <;> split <;> simp_all
  | cons a rest ih =>
    obtain ⟨x, b⟩ := a
    have hr : memWf rest = true := by cases rest <;> simp_all [memWf]
    simp only [writeByte]
    split
    · simp only [readByte]
      by_cases h1 : n = k
      · rw [if_pos h1, if_pos h1.symm]
      · rw [if_neg h1, if_neg (Ne.symm h1)]
    · split
      · rename_i _ h2
        simp only [readByte]
        by_cases h1 : x = k
        · rw [if_pos h1, if_pos (h1.symm.trans h2.symm)]
        · rw [if_neg h1, if_neg (fun e => h1 (h2.symm.trans e.symm)), if_neg h1]
      · rename_i h2
        simp only [readByte]
        by_cases h1 : x = k
        · rw [if_pos h1, if_pos h1, if_neg (fun e => h2 (e.symm.trans h1.symm))]
        · rw [if_neg h1, if_neg h1]; exact ih hr

/-- The canonical form is kept by a byte written. -/
theorem memWf_writeByte (m : List Host.Cell) (n : Nat) (v : Byte) (h : memWf m = true) :
    memWf (writeByte m n v) = true := by
  induction m with
  | nil => rfl
  | cons a rest ih =>
    obtain ⟨x, b⟩ := a
    simp only [writeByte]
    split
    · simp [memWf, *]
    · split
      · cases rest <;> simp_all [memWf]
      · cases rest with
        | nil => simp only [writeByte, memWf, Bool.and_true, decide_eq_true_eq]; omega
        | cons c rest' =>
          obtain ⟨y, w⟩ := c
          have h1 : x < y := by simp_all [memWf]
          have h2 := ih (by simp_all [memWf])
          revert h2
          simp only [writeByte]
          split
          · intro h2; simp only [memWf, Bool.and_eq_true, decide_eq_true_eq] at h2 ⊢; exact ⟨by omega, h2⟩
          · split
            · intro h2
              cases rest' <;> simp_all [memWf]
            · intro h2
              simp only [memWf, Bool.and_eq_true, decide_eq_true_eq]
              exact ⟨h1, h2⟩

/-- The canonical form is kept by a host write. -/
theorem memWf_writeBytes (m : List Host.Cell) (n : Nat) (bs : List Byte) (h : memWf m = true) :
    memWf (writeBytes m n bs) = true := by
  induction bs generalizing m n with
  | nil => exact h
  | cons b bs ih => exact ih _ _ (memWf_writeByte m n b h)

/-- A host write puts its bytes at successive addresses and leaves every other address as it was. -/
theorem readByte_writeBytes (m : List Host.Cell) (n : Nat) (bs : List Byte) (k : Nat) (h : memWf m = true) :
    readByte (writeBytes m n bs) k =
      if n ≤ k ∧ k < n + bs.length then bs[k - n]? else readByte m k := by
  induction bs generalizing m n with
  | nil => simp [writeBytes]
  | cons b bs ih =>
    simp only [writeBytes]
    rw [ih _ _ (memWf_writeByte m n b h), readByte_writeByte m n k b h]
    by_cases h1 : k = n
    · subst h1; simp
    · by_cases h2 : n ≤ k ∧ k < n + (b :: bs).length
      · have h3 : n + 1 ≤ k ∧ k < n + 1 + bs.length := by simp only [List.length_cons] at h2; omega
        rw [if_pos h3, if_pos h2]
        obtain ⟨j, rfl⟩ : ∃ j, k = n + 1 + j := ⟨k - (n + 1), by omega⟩
        simp [show n + 1 + j - n = j + 1 by omega, show n + 1 + j - (n + 1) = j by omega]
      · have h3 : ¬ (n + 1 ≤ k ∧ k < n + 1 + bs.length) := by simp only [List.length_cons] at h2; omega
        rw [if_neg h3, if_neg h2, if_neg h1]

/-- Host memory after link reset is in canonical form. -/
theorem reset_memWf : memWf State.reset.host.mem = true := rfl

end Sys2Proof.Machine
end

