-- ==== Sys2Proof/Laws/Order.lean ====
section
/-! SUPPORT. The order of host writes in one event that decides for several blocks (R103): what stood before keeps its place, and what
is new is the same places, put channel by channel. -/

namespace Sys2Proof.Machine

set_option Elab.async false

/-- Putting places in channel order loses none and adds none. -/
theorem mem_channelOrder (o : List OrderItem) (i : OrderItem) : i ∈ channelOrder o ↔ i ∈ o := by
  simp only [channelOrder, List.mem_append, List.mem_flatMap, List.mem_filter]
  constructor
  · rintro (⟨c, -, h, -⟩ | ⟨h, -⟩) <;> exact h
  · intro h
    by_cases hc : Chan.all.all (fun c => !i.isRunOf c) = true
    · exact .inr ⟨h, hc⟩
    · simp only [List.all_eq_true, Bool.not_eq_true', not_forall, Bool.not_eq_false] at hc
      obtain ⟨c, hm, hr⟩ := hc
      exact .inl ⟨c, hm, h, hr⟩

/-- An event that decides nothing new leaves the order alone. -/
@[simp] theorem channelOrder_nil : channelOrder [] = [] := by decide

/-- An event that only adds places behind those that stood, put in channel order (R103). -/
theorem inChannelOrder_order {event : State → State} {s : State} {new : List OrderItem}
    (h : (event s).order = s.order ++ new) : (inChannelOrder event s).order = s.order ++ channelOrder new := by
  simp [inChannelOrder, h, State.putOrder]

/-- Every block but the order is as the event leaves it. -/
theorem inChannelOrder_eq (event : State → State) (s : State) :
    inChannelOrder event s = (event s).putOrder (inChannelOrder event s).order := rfl

end Sys2Proof.Machine
end

