-- ==== Sys2Proof/WellFormed.lean ====
section
/-! DEFINITION. Which terms of Instr are commands: the checks a command's operands meet by the row that names it. -/

namespace Sys2Proof

/-- The bytes of a host read number from 1 to the longest read of its kind (R112, R123, R154). -/
def ReadResult.lengthIn (lo hi : Nat) : ReadResult → Bool
  | .data bytes => lo ≤ bytes.length && bytes.length ≤ hi
  | .error => true

/-- The operands are ones their row can carry. -/
def Instr.wellFormed : Instr → Bool
  | .apertureWriteIgnored offset => !touchesPort offset
  | .malformed offset enables => touchesPort offset && !wholePieces offset enables
  | .unknown kind => !knownKind kind.value
  | .prefetchReadComplete _ _ r => r.lengthIn 1 128
  | .lineFillComplete r => r.lengthIn Config.lineBytes Config.lineBytes
  | .streamReadComplete _ r => r.lengthIn 1 Config.streamPiece
  | .linkReset | .queuedKindAppend _ | .ringSet _ _ _ | .ringCredit _ _ _ _ _
  | .queueHalt _ _ | .queueResume _ _ | .queueAbort _
  | .portRead | .portWrite | .memoryRead | .memoryWrite | .streamIn | .streamOut
  | .slotReset | .fence | .channelProgram | .channelNext | .channelMaskSet | .channelMaskClear
  | .channelRequestSet | .channelRequestClear | .channelStatus | .lineSet | .lineMaskSet
  | .lineMaskClear | .lineEndSpecific | .lineEndNonSpecific | .linePoll
  | .tableWriteWindow | .tableWriteMap | .tableWriteSegment | .tableWriteSettings
  | .tableRead | .tableClear | .partReset | .identify
  | .slotClockApply | .hostCycleEnd _ _ _ | .unitCycleEnd _ _ | .refreshCycleEnd _
  | .readyRelease _ | .readyLimitExpiry | .cardCheckEdge _ | .resetDurationEnd | .settleEnd
  | .refreshTimerExpiry | .masterHoldLimit | .dmaRequestRise _ | .dmaRequestFall _
  | .stagingAgeLimit _ | .hostWriteIssue | .prefetchReadForm _ | .masterWriteCycle _ _ _
  | .masterHeldWritePost | .masterWriteDecide | .masterReadCycle _ _
  | .interruptLineRise _ | .interruptLineFall _ | .streamStep | .streamReadForm
  | .returnRecordWrite => true

end Sys2Proof
end

