-- ==== Sys2Proof/Laws/PerInstr.lean ====
section
/-! SUPPORT. One statement about every command as syntax: a record written whole to the request port never spells an ill-formed one. -/

namespace Sys2Proof.Laws

set_option Elab.async false

/-- If sixteen bytes written to the request port spell the command, it is well formed (R160, R174). -/
def Sent.Statement (i : Instr) : Prop := ∀ more bytes, decodeRecord more bytes = i → i.wellFormed = true

/-- Every record spells a well-formed command: UNKNOWN is spelled only by a kind byte that names no kind. -/
theorem decodeRecord_wellFormed (more : Bool) (bytes : List Byte) : (decodeRecord more bytes).wellFormed = true := by
  unfold decodeRecord
  dsimp only
  cases h : ReqKind.ofCode (bytes.getD 0 0) with
  | some k => rfl
  | none =>
    dsimp only
    repeat' split
    all_goals first
      | rfl
      | simp_all [Instr.wellFormed, knownKind]

/-- The family's proof for one command. -/
theorem Sent.of (i : Instr) : Sent.Statement i := fun more bytes h => h ▸ decodeRecord_wellFormed more bytes

theorem Sent.linkReset : Sent.Statement (.linkReset) := Sent.of _
theorem Sent.apertureWriteIgnored (offset : BitVec 12) : Sent.Statement (.apertureWriteIgnored offset) := Sent.of _
theorem Sent.malformed (offset : BitVec 12) (enables : List Bool) : Sent.Statement (.malformed offset enables) := Sent.of _
theorem Sent.unknown (kind : Written Byte) : Sent.Statement (.unknown kind) := Sent.of _
theorem Sent.queuedKindAppend (r : Written Record) : Sent.Statement (.queuedKindAppend r) := Sent.of _
theorem Sent.ringSet (tag : Written Byte) (base : BitVec 64) (size : Word) : Sent.Statement (.ringSet tag base size) := Sent.of _
theorem Sent.ringCredit (tag : Written Byte) (respond arm clearFault : Bool) (number : BitVec 16) :
    Sent.Statement (.ringCredit tag respond arm clearFault number) := Sent.of _
theorem Sent.queueHalt (tag : Written Byte) (respond : Bool) : Sent.Statement (.queueHalt tag respond) := Sent.of _
theorem Sent.queueResume (tag : Written Byte) (respond : Bool) : Sent.Statement (.queueResume tag respond) := Sent.of _
theorem Sent.queueAbort (tag : Written Byte) : Sent.Statement (.queueAbort tag) := Sent.of _
theorem Sent.portRead : Sent.Statement (.portRead) := Sent.of _
theorem Sent.portWrite : Sent.Statement (.portWrite) := Sent.of _
theorem Sent.memoryRead : Sent.Statement (.memoryRead) := Sent.of _
theorem Sent.memoryWrite : Sent.Statement (.memoryWrite) := Sent.of _
theorem Sent.streamIn : Sent.Statement (.streamIn) := Sent.of _
theorem Sent.streamOut : Sent.Statement (.streamOut) := Sent.of _
theorem Sent.slotReset : Sent.Statement (.slotReset) := Sent.of _
theorem Sent.fence : Sent.Statement (.fence) := Sent.of _
theorem Sent.channelProgram : Sent.Statement (.channelProgram) := Sent.of _
theorem Sent.channelNext : Sent.Statement (.channelNext) := Sent.of _
theorem Sent.channelMaskSet : Sent.Statement (.channelMaskSet) := Sent.of _
theorem Sent.channelMaskClear : Sent.Statement (.channelMaskClear) := Sent.of _
theorem Sent.channelRequestSet : Sent.Statement (.channelRequestSet) := Sent.of _
theorem Sent.channelRequestClear : Sent.Statement (.channelRequestClear) := Sent.of _
theorem Sent.channelStatus : Sent.Statement (.channelStatus) := Sent.of _
theorem Sent.lineSet : Sent.Statement (.lineSet) := Sent.of _
theorem Sent.lineMaskSet : Sent.Statement (.lineMaskSet) := Sent.of _
theorem Sent.lineMaskClear : Sent.Statement (.lineMaskClear) := Sent.of _
theorem Sent.lineEndSpecific : Sent.Statement (.lineEndSpecific) := Sent.of _
theorem Sent.lineEndNonSpecific : Sent.Statement (.lineEndNonSpecific) := Sent.of _
theorem Sent.linePoll : Sent.Statement (.linePoll) := Sent.of _
theorem Sent.tableWriteWindow : Sent.Statement (.tableWriteWindow) := Sent.of _
theorem Sent.tableWriteMap : Sent.Statement (.tableWriteMap) := Sent.of _
theorem Sent.tableWriteSegment : Sent.Statement (.tableWriteSegment) := Sent.of _
theorem Sent.tableWriteSettings : Sent.Statement (.tableWriteSettings) := Sent.of _
theorem Sent.tableRead : Sent.Statement (.tableRead) := Sent.of _
theorem Sent.tableClear : Sent.Statement (.tableClear) := Sent.of _
theorem Sent.partReset : Sent.Statement (.partReset) := Sent.of _
theorem Sent.identify : Sent.Statement (.identify) := Sent.of _
theorem Sent.slotClockApply : Sent.Statement (.slotClockApply) := Sent.of _
theorem Sent.hostCycleEnd (sense ready : Bool) (data : BusWord) : Sent.Statement (.hostCycleEnd sense ready data) := Sent.of _
theorem Sent.unitCycleEnd (ready : Bool) (data : BusWord) : Sent.Statement (.unitCycleEnd ready data) := Sent.of _
theorem Sent.refreshCycleEnd (ready : Bool) : Sent.Statement (.refreshCycleEnd ready) := Sent.of _
theorem Sent.readyRelease (data : BusWord) : Sent.Statement (.readyRelease data) := Sent.of _
theorem Sent.readyLimitExpiry : Sent.Statement (.readyLimitExpiry) := Sent.of _
theorem Sent.cardCheckEdge (between : Bool) : Sent.Statement (.cardCheckEdge between) := Sent.of _
theorem Sent.resetDurationEnd : Sent.Statement (.resetDurationEnd) := Sent.of _
theorem Sent.settleEnd : Sent.Statement (.settleEnd) := Sent.of _
theorem Sent.refreshTimerExpiry : Sent.Statement (.refreshTimerExpiry) := Sent.of _
theorem Sent.masterHoldLimit : Sent.Statement (.masterHoldLimit) := Sent.of _
theorem Sent.dmaRequestRise (c : Chan) : Sent.Statement (.dmaRequestRise c) := Sent.of _
theorem Sent.dmaRequestFall (c : Chan) : Sent.Statement (.dmaRequestFall c) := Sent.of _
theorem Sent.stagingAgeLimit (c : Chan) : Sent.Statement (.stagingAgeLimit c) := Sent.of _
theorem Sent.hostWriteIssue : Sent.Statement (.hostWriteIssue) := Sent.of _
theorem Sent.prefetchReadForm (c : Chan) : Sent.Statement (.prefetchReadForm c) := Sent.of _
theorem Sent.prefetchReadComplete (c : Chan) (id : Nat) (r : ReadResult) : Sent.Statement (.prefetchReadComplete c id r) := Sent.of _
theorem Sent.masterWriteCycle (addr : BitVec 24) (wide : Bool) (data : BusWord) : Sent.Statement (.masterWriteCycle addr wide data) := Sent.of _
theorem Sent.masterHeldWritePost : Sent.Statement (.masterHeldWritePost) := Sent.of _
theorem Sent.masterWriteDecide : Sent.Statement (.masterWriteDecide) := Sent.of _
theorem Sent.masterReadCycle (addr : BitVec 24) (wide : Bool) : Sent.Statement (.masterReadCycle addr wide) := Sent.of _
theorem Sent.lineFillComplete (r : ReadResult) : Sent.Statement (.lineFillComplete r) := Sent.of _
theorem Sent.interruptLineRise (l : Line) : Sent.Statement (.interruptLineRise l) := Sent.of _
theorem Sent.interruptLineFall (l : Line) : Sent.Statement (.interruptLineFall l) := Sent.of _
theorem Sent.streamStep : Sent.Statement (.streamStep) := Sent.of _
theorem Sent.streamReadForm : Sent.Statement (.streamReadForm) := Sent.of _
theorem Sent.streamReadComplete (id : Nat) (r : ReadResult) : Sent.Statement (.streamReadComplete id r) := Sent.of _
theorem Sent.returnRecordWrite : Sent.Statement (.returnRecordWrite) := Sent.of _

end Sys2Proof.Laws
end

