-- ==== Sys2Proof/Laws/Sequencer.lean ====
section
/-! SUPPORT. What the shared operations of the sequencer can do, said once: retirement, the outcome of a request, and the execution
of a record that has been taken. -/

namespace Sys2Proof.Machine

/-- Where the sequencer's place stands after a claim. -/
theorem claimPlace_place (q : Queue) :
    (claimPlace q).place =
      (if q.place = .empty then
        (if responseWaits q then .response else if controlWaits q then .control else .empty)
       else q.place) := by
  unfold claimPlace
  cases h : q.place
  · by_cases h1 : responseWaits q <;> by_cases h2 : controlWaits q <;> simp [h, h1, h2]
  · simp [h]
  · simp [h]

/-- A claim touches nothing but the place. -/
theorem claimPlace_eq (q : Queue) : claimPlace q = { q with place := (claimPlace q).place } := by
  unfold claimPlace
  cases h : q.place
  · by_cases h1 : responseWaits q <;> by_cases h2 : controlWaits q <;> simp [h1, h2]
  · simp
  · simp

@[simp] theorem claimPlace_records (q : Queue) : (claimPlace q).records = q.records := by rw [claimPlace_eq]
@[simp] theorem claimPlace_exec (q : Queue) : (claimPlace q).exec = q.exec := by rw [claimPlace_eq]
@[simp] theorem claimPlace_state (q : Queue) : (claimPlace q).state = q.state := by rw [claimPlace_eq]
@[simp] theorem claimPlace_controls (q : Queue) : (claimPlace q).controls = q.controls := by rw [claimPlace_eq]
@[simp] theorem claimPlace_waitHalt (q : Queue) : (claimPlace q).waitHalt = q.waitHalt := by rw [claimPlace_eq]
@[simp] theorem claimPlace_waitAbort (q : Queue) : (claimPlace q).waitAbort = q.waitAbort := by rw [claimPlace_eq]
@[simp] theorem claimPlace_finished (q : Queue) : (claimPlace q).finished = q.finished := by rw [claimPlace_eq]

@[simp] theorem claimPlace_number (q : Queue) : (claimPlace q).number = q.number := by rw [claimPlace_eq]
@[simp] theorem claimPlace_tied (q : Queue) : (claimPlace q).tied = q.tied := by rw [claimPlace_eq]

/-- What a record of a write leaves of the queue but for the place and its mark (R46, R160). -/
theorem Queue.afterRecord_eq (more : Bool) (old q : Queue) :
    Queue.afterRecord more old q =
      { q with place := (Queue.afterRecord more old q).place, tied := (Queue.afterRecord more old q).tied } := by
  unfold Queue.afterRecord
  split
  · split <;> rfl
  · rfl

/-- After a record of a write only a control answer is marked as having its place from that write (R160). -/
theorem Queue.afterRecord_tied {more : Bool} {old q : Queue} (h : (Queue.afterRecord more old q).tied = true) :
    (Queue.afterRecord more old q).place = .control := by
  revert h
  unfold Queue.afterRecord
  split
  · split
    · intro h; cases h
    · intro _; simp_all
  · intro h; cases h

/-- A record that ends a write leaves no mark (R160). -/
@[simp] theorem Queue.afterRecord_last (old q : Queue) : (Queue.afterRecord false old q).tied = false := by
  unfold Queue.afterRecord
  split
  · split <;> rfl
  · rfl

@[simp] theorem Control.makeReady_ready (c : Control) : c.makeReady.ready = true := rfl
@[simp] theorem Control.makeReady_answer (c : Control) : c.makeReady.answer = c.answer := rfl
@[simp] theorem Control.makeReady_kind (c : Control) : c.makeReady.kind = c.kind := rfl
@[simp] theorem Control.makeReady_tag (c : Control) : c.makeReady.tag = c.tag := rfl
@[simp] theorem Control.makeReady_behind (c : Control) : c.makeReady.behind = c.behind := rfl

/-- A control answer waits once every one is ready, if there is one. -/
theorem controlWaits_ready (cs : List Control) (q : Queue) (h : q.controls = cs.map Control.makeReady) :
    controlWaits q = !cs.isEmpty := by
  unfold controlWaits
  rw [h]
  cases cs <;> simp

/-- What taking the head does: in RUNNING with nothing in flight the head is in flight, and nothing else changes (R37). -/
theorem takeHead_eq (s : State) :
    takeHead s = { s with queue := { s.queue with
      exec := if s.queue.state = .running ∧ s.queue.exec = none then s.queue.records.head?.map Exec.take
              else s.queue.exec } } := by
  unfold takeHead
  split <;> rfl

/-- Retirement, in the terms of Safety. -/
theorem retire_retired (s : State) (e : Exec) (h : s.queue.exec = some e) :
    Retired e.haltFault (if e.responds then none else streamOf e.request) s.queue s.stream (retire s) := by
  unfold retire
  rw [h]
  simp only [takeHead_eq]
  generalize hq : ({ s.queue with
            records := s.queue.records.tail
            exec := none
            state := stateAfterRetire s.queue e.haltFault
            waitHalt := false
            waitAbort := false
            controls := s.queue.controls.map Control.makeReady
            place := if s.queue.place = .response then .empty else s.queue.place
            finished := if e.responds then none else streamOf e.request
            number := s.queue.number + 1 } : Queue) = q
  have hs : (State.putQueue (s.putActive none) (claimPlace q)).queue = claimPlace q := rfl
  have hp := claimPlace_place q
  constructor <;> simp only [hs] <;> (try rw [← hq]) <;> simp only [claimPlace_records, claimPlace_exec, claimPlace_state,
    claimPlace_controls, claimPlace_waitHalt, claimPlace_waitAbort, claimPlace_finished, claimPlace_number, claimPlace_tied]
  · rfl
  · simp
  · rfl
  · rw [hq, hp, controlWaits_ready s.queue.controls q (by rw [← hq])]
    subst hq
    cases hpl : s.queue.place <;> cases s.queue.controls <;> simp [responseWaits]
  · rfl

/-- The outcome of the request in flight, in the terms of Safety. -/
theorem endWith_ends (hf : Bool) (st : Status) (n : Nat) (d : List Byte) (s : State) (e : Exec)
    (h : s.queue.exec = some e) : EndsWith hf e.request st n d s (endWith hf st n d s) := by
  refine ⟨endWith_within _ _ _ _ _, ?_, ?_⟩
  · intro hr
    unfold endWith
    rw [h]
    simp only [hr, if_true]
    refine ⟨rfl, ?_⟩
    show claimPlace _ = _
    unfold claimPlace
    cases hp : s.queue.place <;> simp [responseWaits, Exec.finish, hr]
  · intro hr
    have hw : endWith hf st n d s = retire (s.putQueue (claimPlace { s.queue with exec := some (e.finish st n d hf) })) := by
      unfold endWith
      rw [h]
      simp [hr]
    rw [hw]
    have k := retire_retired (s.putQueue (claimPlace { s.queue with exec := some (e.finish st n d hf) }))
      (e.finish st n d hf) (by show (claimPlace _).exec = _; simp)
    have hq : (s.putQueue (claimPlace { s.queue with exec := some (e.finish st n d hf) })).queue =
      claimPlace { s.queue with exec := some (e.finish st n d hf) } := rfl
    have hst : (s.putQueue (claimPlace { s.queue with exec := some (e.finish st n d hf) })).stream = s.stream := rfl
    rw [hq, hst] at k
    constructor
    · simpa using k.records
    · simpa [Exec.finish] using k.state
    · simpa using k.exec
    · rw [k.controls, claimPlace_controls]
    · exact k.waitHalt
    · exact k.waitAbort
    · rw [k.place, claimPlace_place, claimPlace_controls]
      cases hp : s.queue.place <;> cases hc : s.queue.controls <;>
        simp [responseWaits, Exec.finish, hr, controlWaits, hc]
    · simpa [Exec.finish, hr] using k.finished
    · simpa using k.number
    · simpa using k.tied
    · exact k.stream

/-- A request that ends at once from the state in which it was executed. -/
theorem endRequest_ends (st : Status) (n : Nat) (d : List Byte) (s : State) (e : Exec)
    (h : s.queue.exec = some e) : Ends e.request st n d s (endRequest st n d s) := endWith_ends false st n d s e h

/-- The record taken is the request in flight, and it is executed (R37). -/
theorem whenTaken_taken {row : Record → Bool} {r : Record} {s : State} (body : Record → State → State)
    (h : takenRecord s = some r) (hr : row r = true) : whenTaken row body s = body r (setPhase .active s) := by
  unfold takenRecord at h
  unfold whenTaken
  split at h
  · split at h
    · cases h; simp_all
    · cases h
  · cases h

/-- A row of another record, or one that finds none taken, does nothing (log entry 2). -/
theorem whenTaken_other {row : Record → Bool} {s : State} (body : Record → State → State)
    (h : ∀ r, takenRecord s = some r → row r = false) : whenTaken row body s = s := by
  unfold whenTaken
  unfold takenRecord at h
  split
  · rename_i e he
    rw [he] at h
    by_cases hp : e.phase = .taken
    · have := h e.request (by simp [hp]); simp [this]
    · simp [hp]
  · rfl

/-- The phase alone tells the executing state from the one that took the record. -/
theorem ends_of_setPhase {hf : Bool} {r : Record} {st : Status} {n : Nat} {d : List Byte} {p : ReqPhase} {s t : State}
    (h : EndsWith hf r st n d (setPhase p s) t) : EndsWith hf r st n d s t := by
  refine ⟨?_, h.responds, fun k => ?_⟩
  · exact Within.seq (setPhase_within p s) h.frame
  · have := h.retires k
    exact ⟨this.records, this.state, this.exec, this.controls, this.waitHalt, this.waitAbort, this.place, this.finished,
      this.number, this.tied, this.stream⟩

end Sys2Proof.Machine
end

