-- ==== Sys2Proof/Tests/Slice0.lean ====
section
/-! SUPPORT. Tests of single commands, with expected results taken from the manual's worked examples and tables, the smoke tests of
WellFormed, and for each obligation a witness that meets its hypotheses. -/

namespace Sys2Proof.Tests

open Sys2Proof Sys2Proof.Machine

set_option Elab.async false

/-! ## States to test on -/

/-- A request record with tag 52h. -/
def req (k : ReqKind) (flags sub : Byte) (addr value mask : Word) : Record := ⟨k, 0x52, flags, sub, addr, value, mask⟩

/-- The board after bring-up: the line released, the held flag clear, the ring set and one record written. -/
def live : State :=
  { State.reset with
    slot := { State.reset.slot with line := .released, held := false }
    ret := ⟨true, 0x1000, 64, 1, 0, false⟩ }

/-- The sequencer has taken a record and not yet executed it. -/
def taking (r : Record) (s : State) : State :=
  { s with queue := { s.queue with records := [r], exec := some (Exec.take r) } }

/-- A request in flight with its phase and work. -/
def flying (r : Record) (p : ReqPhase) (w : Work) (s : State) : State :=
  { s with queue := { s.queue with records := [r], exec := some { Exec.take r with phase := p, work := w } } }

/-- The state a command leaves. -/
def after (c : Instr) (s : State) : State :=
  match exec c s with
  | .next t => t
  | .fault f => nomatch f
  | .refused _ => s

/-- The outcome that waits in ENDED. -/
def outcome (s : State) : Option Answer :=
  match s.queue.exec with
  | some e => if e.phase = .ended then some e.answer else none
  | none => none

/-- A plain outcome: count 0 and data bytes 00h. -/
def plain (st : Status) : Option Answer := some ⟨st, 0, zeros8⟩

/-- The phase of the request in flight. -/
def phase (s : State) : Option ReqPhase := s.queue.exec.map Exec.phase

/-- The window table of the worked example of 02. -/
def windowTable : Vector Entry 32 :=
  (((((((((Vector.replicate 32 Entry.zero).set 0 ⟨0x33, 0x0C8000, 0x0C87FF, 0⟩).set 1 ⟨0x101, 0x330, 0x331, 0⟩).set 2
    ⟨0x51, 0x300, 0x31F, 0⟩).set 3 ⟨0x101, 0x220, 0x22F, 0⟩).set 4 ⟨0xF00005, 0x201, 0x201, 0⟩).set 5
    ⟨0x9, 0, 0xFF, 0⟩).set 6 ⟨0xFF0007, 0xC0000, 0xDFFFF, 0⟩).set 7 ⟨0x9, 0x300, 0x3FF, 0⟩)

/-- Map entries 2, 3 and 4 of the worked examples of 06 and 07. -/
def mapTable : Vector Entry 32 :=
  (((Vector.replicate 32 Entry.zero).set 2 ⟨0x00A00005, 15, 0x0047A310, 0⟩).set 3 ⟨0x00B00001, 0, 0x00051C07, 0⟩).set 4
    ⟨0x00100005, 3, 0x0023C000, 0⟩

/-- Segments 4 and 9 of the worked example of 09, and segment 5, which is of one byte and names no valid next. -/
def segmentTable : Vector Entry 64 :=
  (((Vector.replicate 64 Entry.zero).set 4 ⟨0x01FF0901, 0x00000F00, 1, 0⟩).set 9 ⟨0x03FF7F01, 0x00020000, 1, 0⟩).set 5
    ⟨0x00000A01, 0x5000, 0, 0⟩

/-- The board with the tables of the worked examples. -/
def board : State := { live with windows := windowTable, map := mapTable, segments := segmentTable }

/-- The board with another owner of the bus, so that no grant follows what a command does. -/
def busy : State := { board with arb := { board.arb with owner := .master, masterChan := some .c7, lastMaster := some 0x10FFC } }

/-- Channel 1 of the worked example of 05: DEMAND, TO MEMORY, threshold 32, auto-reload, page 0Ah. -/
def capture : Channel :=
  { Channel.reset with
    mode := .demand, autoReload := true, threshold := 32, page := 0x0A, baseAddr := 0xFFF0, baseCount := 0x1F
    curAddr := 0xFFF0, curCount := 0x1F, mask := false, state := .waiting }

/-- A board with a channel record put in place. -/
def withChan (c : Chan) (ch : Channel) (s : State) : State := s.putChan c ch

/-- The same with the channel in a unit tenure: the unit at its current address is in progress. -/
def inTenure (c : Chan) (ch : Channel) (s : State) : State :=
  let s' := s.putChan c { ch with state := .active, mask := false }
  { s' with
    arb := { s'.arb with owner := .dma c }
    slot := { s'.slot with cycle := some (unitCycle c s') }
    pins := { s'.pins with dreq := s'.pins.dreq.put c true } }

/-- The same with the channel's card holding the bus as master. -/
def mastering (c : Chan) (s : State) : State :=
  let s' := s.putChan c { Channel.reset with mode := .master, mask := false, state := .mastered }
  { s' with
    arb := { s'.arb with owner := .master, masterChan := some c, lastMaster := some 0x10FFC }
    pins := { s'.pins with dreq := s'.pins.dreq.put c true } }

/-- A refresh tenure with `n` cycles owed. -/
def refreshing (n : Nat) (s : State) : State :=
  { s with
    refresh := { s.refresh with owed := n, row := 0xFF, episode := true }
    arb := { s.arb with owner := .refresh }
    slot := { s.slot with cycle := some { refreshCycle s with addr := 0xFF } } }

/-- The cycle in progress is EXTENDED. -/
def extended (s : State) : State :=
  { s with slot := { s.slot with
      cycle := s.slot.cycle.map (fun c => { c with phase := .extended }), readyTimer := some ⟨16, 0⟩ } }

/-- Bytes `n`, `n + 1`, …, as many as asked. -/
def bytesFrom (n : Nat) (len : Nat) : List Byte := (List.range len).map (fun i => BitVec.ofNat 8 (n + i))

/-! ## Well-formed commands -/

theorem test_wf_port_offset : (Instr.apertureWriteIgnored 0x7FF).wellFormed = false := by decide
theorem test_wf_first_ignored_offset : (Instr.apertureWriteIgnored 0x800).wellFormed = true := by decide
theorem test_wf_whole_piece : (Instr.malformed 0x7F0 (List.replicate 16 true)).wellFormed = false := by decide
theorem test_wf_malformed_outside : (Instr.malformed 0x800 [true]).wellFormed = false := by decide
theorem test_wf_piece_past_port : (Instr.malformed 0x7F0 (List.replicate 32 true)).wellFormed = true := by decide
theorem test_wf_known_kind : (Instr.unknown ⟨0x29, false⟩).wellFormed = false := by decide
theorem test_wf_intake_kind : (Instr.unknown ⟨0x34, false⟩).wellFormed = false := by decide
theorem test_wf_unknown_kind : (Instr.unknown ⟨0x35, false⟩).wellFormed = true := by decide
theorem test_wf_empty_prefetch : (Instr.prefetchReadComplete .c1 0 (.data [])).wellFormed = false := by decide
theorem test_wf_long_prefetch : (Instr.prefetchReadComplete .c1 0 (.data (List.replicate 129 0))).wellFormed = false := by decide +kernel
theorem test_wf_short_fill : (Instr.lineFillComplete (.data (List.replicate 31 0))).wellFormed = false := by decide
theorem test_wf_fill : (Instr.lineFillComplete (.data (List.replicate 32 0))).wellFormed = true := by decide
theorem test_wf_long_stream : (Instr.streamReadComplete 0 (.data (List.replicate 65 0))).wellFormed = false := by decide

/-! ## What a write to the aperture spells (bytes written out from R174) -/

theorem test_decode_port_read :
    decodeRecord false [0x01, 0x52, 0x01, 0x02, 0x00, 0x03, 0, 0, 0, 0, 0, 0, 0, 0, 0, 0] =
      .queuedKindAppend ⟨⟨.portRead, 0x52, 0x01, 0x02, 0x300, 0, 0⟩, false⟩ := by decide
theorem test_decode_ring_set :
    decodeRecord false [0x30, 0x07, 0, 0, 0x00, 0x10, 0x32, 0x54, 0x76, 0x98, 0xBA, 0xDC, 0x00, 0x01, 0, 0] =
      .ringSet ⟨0x07, false⟩ 0xDCBA987654321000 0x100 := by decide
theorem test_decode_ring_credit :
    decodeRecord false [0x31, 0x08, 0x06, 0, 0x0A, 0x00, 0xFF, 0xFF, 0, 0, 0, 0, 0, 0, 0, 0] =
      .ringCredit ⟨0x08, false⟩ false true true 10 := by decide
theorem test_decode_controls :
    (decodeRecord false [0x32, 1, 1, 0, 0, 0, 0, 0, 0, 0, 0, 0, 0, 0, 0, 0],
     decodeRecord false [0x33, 2, 0, 0, 0, 0, 0, 0, 0, 0, 0, 0, 0, 0, 0, 0],
     decodeRecord false [0x34, 3, 0, 0, 0, 0, 0, 0, 0, 0, 0, 0, 0, 0, 0, 0],
     decodeRecord false [0x09, 4, 0, 0, 0, 0, 0, 0, 0, 0, 0, 0, 0, 0, 0, 0]) =
      (.queueHalt ⟨1, false⟩ true, .queueResume ⟨2, false⟩ false, .queueAbort ⟨3, false⟩, .unknown ⟨0x09, false⟩) := by decide
/-- IDENTIFY and QUEUE ABORT in one write: the first says that another record follows. -/
theorem test_decode_two_records :
    decodeWrite 0x7E0 (((req .identify 1 0 0 0 0).encode ++ [0x34, 3, 0, 0, 0, 0, 0, 0, 0, 0, 0, 0, 0, 0, 0, 0]).map some) =
      [.queuedKindAppend ⟨req .identify 1 0 0 0 0, true⟩, .queueAbort ⟨3, false⟩] := by decide
theorem test_decode_half_record : decodeWrite 0 (List.replicate 8 (some 0)) = [.malformed 0 (List.replicate 8 true)] := by decide
theorem test_decode_hole_in_record :
    decodeWrite 16 (List.replicate 15 (some 0x29) ++ [none]) = [.malformed 16 (List.replicate 15 true ++ [false])] := by decide
theorem test_decode_past_port : decodeWrite 0x800 [some 1] = [.apertureWriteIgnored 0x800] := by decide

/-! ## Link interface and intake (10) -/

/-- Status after link reset: room 64, RUNNING, ring-set clear, slot-held set, intake fault clear (R167). -/
theorem test_linkReset : statusWord (after .linkReset board) = 0x2040 := by decide
theorem test_linkReset_tables : (after .linkReset board).windows = Vector.replicate 32 ⟨0, 0, 0, 0⟩ := by decide
theorem test_apertureWriteIgnored : after (.apertureWriteIgnored 0x800) board = board := by decide
theorem test_malformed : (after (.malformed 8 [true]) live).intake = ⟨true, 1, some .malformed⟩ := by decide
theorem test_unknown_keeps_first_cause :
    (after (.unknown ⟨0x35, false⟩) { live with intake := ⟨true, 255, some .full⟩ }).intake = ⟨true, 255, some .full⟩ := by decide
theorem test_append_taken : phase (after (.queuedKindAppend ⟨req .identify 1 0 0 0 0, false⟩) live) = some .taken := by decide

/-- A queue that holds 64 records, HALTED. -/
def fullQueue : State :=
  { live with queue := { live.queue with records := List.replicate 64 (req .identify 1 0 0 0 0), state := .halted } }

theorem test_append_full :
    (after (.queuedKindAppend ⟨req .fence 1 0 0 0 0, false⟩) fullQueue).intake = ⟨true, 1, some .full⟩ := by decide
theorem test_ringSet_rounds : (after (.ringSet ⟨9, false⟩ 0x12345 100) State.reset).ret = ⟨true, 0x12340, 64, 1, 0, false⟩ := by decide
theorem test_ringSet_clamped :
    (after (.ringSet ⟨9, false⟩ 0x12345 100) State.reset).order.head? =
      some (.write .record 0x12340 [0x81, 9, 0x30, 0x01, 64, 0, 0, 0, 0, 0, 0, 0, 0, 0, 0, 0]) := by decide

/-- The full ring of the worked example of 10. -/
def fullRing : State := { live with ret := ⟨true, 0x1000, 64, 64, 0, false⟩ }

/-- Ten credited of 64, with the arm flag: the MSI goes at once and notice stays disarmed. -/
theorem test_ringCredit_example :
    ((after (.ringCredit ⟨1, false⟩ false true false 10) fullRing).ret.c, (after (.ringCredit ⟨1, false⟩ false true false 10) fullRing).ret.armed,
      (after (.ringCredit ⟨1, false⟩ false true false 10) fullRing).order) = (10, false, [.write .msi 0 []]) := by decide
/-- 58 credited of 58 arms notice, with no MSI. -/
theorem test_ringCredit_arms :
    ((after (.ringCredit ⟨1, false⟩ false true false 58) { live with ret := ⟨true, 0x1000, 64, 68, 10, false⟩ }).ret.armed,
      (after (.ringCredit ⟨1, false⟩ false true false 58) { live with ret := ⟨true, 0x1000, 64, 68, 10, false⟩ }).order) =
      (true, []) := by decide

/-! ## The request queue (03) -/

theorem test_halt_idle : (after (.queueHalt ⟨1, false⟩ true) live).queue.state = .halted := by decide
theorem test_halt_behind_request :
    ((after (.queueHalt ⟨1, false⟩ true) (taking (req .identify 1 0 0 0 0) live)).queue.state,
      (after (.queueHalt ⟨1, false⟩ true) (taking (req .identify 1 0 0 0 0) live)).queue.waitHalt) = (.running, true) := by decide
theorem test_resume_takes_head : phase (after (.queueResume ⟨1, false⟩ false) fullQueue) = some .taken := by decide
theorem test_abort_counts :
    (after (.queueAbort ⟨7, false⟩) fullQueue).queue.controls = [⟨0x34, 7, ⟨.ok, 64, zeros8⟩, true, none⟩] := by decide
theorem test_abort_names_started :
    (after (.queueAbort ⟨7, false⟩) (flying (req .slotReset 1 0 1 0 0) .active .nothing live)).queue.controls =
      [⟨0x34, 7, ⟨.ok, 0, [1, 0x07, 0x52, 0, 0, 0, 0, 0]⟩, false, some 0⟩] := by decide

/-! ## Windows and host-path cycles (01, 02): the worked example's table -/

theorem test_portRead_forwarded :
    (after .portRead (taking (req .portRead 1 2 0x300 0 0) board)).slot.cycle.map (fun c => (c.kind, c.addr, c.waits)) =
      some (.word, 0x300, 2) := by decide
theorem test_portRead_span : outcome (after .portRead (taking (req .portRead 1 2 0x31F 0 0) board)) = plain .span := by decide
theorem test_portWrite_byte :
    (after .portWrite (taking (req .portWrite 1 1 0x331 0x5A 0) board)).slot.cycle.map (fun c => (c.kind, c.drive)) =
      some (.byte, [0x5A]) := by decide
theorem test_portWrite_refused :
    outcome (after .portWrite (taking (req .portWrite 0 1 0x340 0 0) board)) = plain .refusedByWindow := by decide
theorem test_memoryRead_fill :
    outcome (after .memoryRead (taking (req .memoryRead 1 4 0xC8800 0 0) board)) =
      some ⟨.ok, 4, [0xFF, 0xFF, 0xFF, 0xFF, 0, 0, 0, 0]⟩ := by decide
theorem test_memoryRead_top :
    outcome (after .memoryRead (taking (req .memoryRead 1 4 0x1000000 0 0) board)) = plain .badRequest := by decide

/-- MEMORY WRITE of width 4 at 0C8001h with value 44332211h, after its first byte cycle. -/
def splitWrite : State :=
  after (.hostCycleEnd false true 0) (after .memoryWrite (taking (req .memoryWrite 1 4 0xC8001 0x44332211 0) board))

theorem test_memoryWrite_split : splitWrite.slot.cycle.map (fun c => (c.kind, c.addr, c.drive)) =
    some (.word, 0xC8002, [0x22, 0x33]) := by decide
/-- The cycles of the example take 7 and 4 slot clocks of 125 ns. -/
theorem test_memoryWrite_clocks :
    ((after .memoryWrite (taking (req .memoryWrite 1 4 0xC8001 0x44332211 0) board)).slot.cycle.map Cycle.clocks,
      splitWrite.slot.cycle.map Cycle.clocks, splitWrite.slot.clock.tenths) = (some 7, some 4, 1250) := by decide
theorem test_memoryWrite_held :
    outcome (after .memoryWrite (taking (req .memoryWrite 1 4 0xC8001 0 0) { board with slot := State.reset.slot })) =
      plain .held := by decide
theorem test_hostCycleEnd_sensed : (after (.hostCycleEnd true true 0) splitWrite).slot.cycle.map (fun c => (c.kind, c.addr, c.drive)) =
    some (.byte, 0xC8004, [0x44]) := by decide
theorem test_hostCycleEnd_converted :
    (after (.hostCycleEnd false true 0) splitWrite).slot.cycle.map (fun c => (c.kind, c.addr, c.drive)) =
      some (.byte, 0xC8003, [0x33]) := by decide

/-- The read of two bytes at 0300h, its word cycle in progress, and the same EXTENDED. -/
def wordRead : State := after .portRead (taking (req .portRead 1 2 0x300 0 0) board)

theorem test_readyRelease_answers :
    outcome (after (.readyRelease 0xBBAA) (after (.hostCycleEnd true false 0) wordRead)) =
      some ⟨.ok, 2, [0xAA, 0xBB, 0, 0, 0, 0, 0, 0]⟩ := by decide
/-- Under HALT the request ends READY with none of the faulted cycle's bytes counted (R31). -/
theorem test_readyLimit_halt : outcome (after .readyLimitExpiry (after (.hostCycleEnd true false 0) wordRead)) = plain .ready := by
  decide
theorem test_readyLimit_refresh :
    (after .readyLimitExpiry (extended (refreshing 1 live))).slot.slotFault = some ⟨.ready, true, some 0xFF⟩ := by decide
theorem test_cardCheckEdge_free : (after (.cardCheckEdge false) live).slot.slotFault = some ⟨.check, false, none⟩ := by decide
theorem test_cardCheckEdge_asserted : after (.cardCheckEdge false) State.reset = State.reset := by decide
theorem test_slotClockApply_owned : after .slotClockApply wordRead = wordRead := by decide
theorem test_slotClockApply :
    (after .slotClockApply { live with settings := ⟨0x0A0F1002, 0, 9, 0⟩ }).slot.clock = .mhz10 := by decide

/-! ## Resets and the bus (01, 04, 11) -/

theorem test_slotReset_zero : outcome (after .slotReset (taking (req .slotReset 1 0 0x0500 0 0) live)) = plain .badRequest := by
  decide
theorem test_slotReset_pulse :
    ((after .slotReset (taking (req .slotReset 1 0 0x0501 0 0) live)).slot.line,
      (after .slotReset (taking (req .slotReset 1 0 0x0501 0 0) live)).slot.pulse) = (.asserted, some ⟨1, 5, 0⟩) := by decide

/-- A SLOT RESET of 1 ms with a settle time, at the end of its pulse. -/
def pulsing (settle : Nat) (l : ResetLine) : State :=
  { flying (req .slotReset 1 0 1 0 0) .active .nothing board with
    slot := { State.reset.slot with line := l, pulse := some ⟨1, settle, 999⟩ } }

theorem test_resetDurationEnd_settles : (after .resetDurationEnd (pulsing 5 .asserted)).slot.pulse = some ⟨1, 5, 0⟩ := by decide
theorem test_resetDurationEnd_ends : outcome (after .resetDurationEnd (pulsing 0 .asserted)) = plain .ok := by decide
theorem test_settleEnd : (after .settleEnd (pulsing 5 .settling)).slot.held = false := by decide
theorem test_partReset : (after .partReset (taking (req .partReset 1 0 0 0 0) board)).map = State.reset.map := by decide
theorem test_refreshTimerExpiry_grants : (after .refreshTimerExpiry live).arb.owner = .refresh := by decide
theorem test_refreshTimerExpiry_late :
    (after .refreshTimerExpiry { busy with refresh := ⟨14, 4, 0, false, false⟩ }).refresh = ⟨0, 4, 0, true, true⟩ := by decide
theorem test_refreshCycleEnd_wraps : (after (.refreshCycleEnd true) (refreshing 2 live)).refresh.row = 0 := by decide
theorem test_masterHoldLimit :
    (after .masterHoldLimit { busy with settings := ⟨0x0A0F1001, 0x6400, 9, 0⟩ }).master.owedFault =
      some ⟨false, false, true, 0x10FFC, []⟩ := by decide

/-- One microsecond of a master tenure at its hold limit, and 15 microseconds since the last refresh. -/
theorem test_idle_step_meter :
    (match step { busy with arb := { busy.arb with meter := 99 }, settings := ⟨0x0A0F1001, 0x6400, 9, 0⟩ } with
      | .next t => (t.arb.meter, t.arb.longReported)
      | _ => (0, false)) = (100, true) := by decide
theorem test_idle_step_refresh :
    (match step { busy with refresh := ⟨14, 0, 0, false, false⟩ } with
      | .next t => (t.refresh.timer, t.refresh.owed)
      | _ => (9, 9)) = (0, 1) := by decide

/-! ## FENCE and DMA channels (03, 05): the worked examples of 05 and 06 -/

/-- Channel 1 with 15 bytes of its run staged, its sixteenth unit in progress. -/
def unit16 : State :=
  let s := inTenure .c1 { capture with curAddr := 0xFFFF, curCount := 0x10 } board
  s.putStage .c1 { s.stage .c1 with
    opened := some ⟨0xAFFF0, 0xAFFFE, 2, 0x47A31FFF0, 0x47A31FFFE, bytesFrom 0 15, 0⟩ }

/-- CA wraps to 0000h, CC falls to 000Fh, and the page stays 0Ah. -/
theorem test_unitCycleEnd_wraps :
    (((after (.unitCycleEnd true 15) unit16).chan .c1).page, ((after (.unitCycleEnd true 15) unit16).chan .c1).curAddr,
      ((after (.unitCycleEnd true 15) unit16).chan .c1).curCount) = (0x0A, 0, 0xF) := by decide
/-- The byte at 0AFFFFh closes the run: 16 bytes at 4_7A31_FFF0h. -/
theorem test_unitCycleEnd_closes_run :
    (after (.unitCycleEnd true 15) unit16).order = [.write (.run .c1) 0x47A31FFF0 (bytesFrom 0 16)] := by decide

/-- Unit 32 of the pass, the terminal-count unit, with 15 bytes of its run staged. -/
def unit32 : State :=
  let s := inTenure .c1 { capture with curAddr := 0x000F, curCount := 0 } board
  s.putStage .c1 { s.stage .c1 with
    opened := some ⟨0xA0000, 0xA000E, 2, 0x47A310000, 0x47A31000E, bytesFrom 0 15, 0⟩ }

theorem test_terminalCount_reloads :
    (((after (.unitCycleEnd true 15) unit32).chan .c1).curAddr, ((after (.unitCycleEnd true 15) unit32).chan .c1).curCount,
      ((after (.unitCycleEnd true 15) unit32).chan .c1).tcOwed) = (0xFFF0, 0x1F, 1) := by decide
theorem test_terminalCount_flushes :
    (after (.unitCycleEnd true 15) unit32).order = [.write (.run .c1) 0x47A310000 (bytesFrom 0 16)] := by decide

/-- Channel 1 waiting, with an open run of 10 bytes at 0A0000h. -/
def staged : State :=
  let s := withChan .c1 capture busy
  s.putStage .c1 { s.stage .c1 with
    opened := some ⟨0xA0000, 0xA0009, 2, 0x47A310000, 0x47A310009, bytesFrom 0 10, 99⟩ }

/-- The write of that run, decided. -/
def runWrite : OrderItem := .write (.run .c1) 0x47A310000 (bytesFrom 0 10)

theorem test_fence_waits :
    ((after .fence (taking (req .fence 1 0 0x02 0 0) staged)).order, phase (after .fence (taking (req .fence 1 0 0x02 0 0) staged))) =
      ([runWrite], some .active) := by decide
theorem test_fence_empty : outcome (after .fence (taking (req .fence 1 0 0xE9 0 0) staged)) = plain .ok := by decide

/-- A mode word: DEMAND, FROM MEMORY, DECREMENT, auto-reload, threshold code 2, prefetch limit 128. -/
def programmed : State :=
  after .channelProgram (taking (req .channelProgram 1 5 0x00800235 0x0013FFFE 0x0002) live)

theorem test_channelProgram :
    (programmed.chan .c5) = { Channel.reset with
      mode := .demand, dir := .fromMemory, decrement := true, autoReload := true, threshold := 32, limit := 128, page := 0x13
      baseAddr := 0xFFFE, baseCount := 2, curAddr := 0xFFFE, curCount := 2 } := by decide
theorem test_channelProgram_bad_limit :
    outcome (after .channelProgram (taking (req .channelProgram 1 5 0x00080235 0 0) live)) = plain .badRequest := by decide
theorem test_channelNext_holds :
    ((after .channelNext (taking (req .channelNext 1 1 0 0x0B0000 0xFF) staged)).chan .c1).nextBlock =
      some ⟨0x0B, 0, 0xFF⟩ := by decide
theorem test_channelNext_collision :
    outcome (after .channelNext (taking (req .channelNext 1 1 0 0x0B0000 0xFF)
      (withChan .c1 { capture with nextBlock := some ⟨0x0C, 0, 0⟩ } busy))) = plain .collision := by decide
theorem test_channelMaskSet_stops :
    ((after .channelMaskSet (taking (req .channelMask 3 0 0x02 0 0) staged)).chan .c1).state = .stopping .idle := by decide
theorem test_channelMaskSet_bad_mark :
    outcome (after .channelMaskSet (taking (req .channelMask 3 0 0x12 0 0) staged)) = plain .badRequest := by decide
/-- A channel DONE at CA = 0010h, CC = FFFFh loads CA = FFF0h and CC = 001Fh from its base. -/
theorem test_channelMaskClear_loads :
    (((after .channelMaskClear (taking (req .channelMask 1 0 0x02 0 0) (withChan .c1
      { capture with state := .finished, mask := true, curAddr := 0x10, curCount := 0xFFFF } busy))).chan .c1).curAddr,
     ((after .channelMaskClear (taking (req .channelMask 1 0 0x02 0 0) (withChan .c1
      { capture with state := .finished, mask := true, curAddr := 0x10, curCount := 0xFFFF } busy))).chan .c1).curCount) =
      (0xFFF0, 0x1F) := by decide
/-- A clear of channels 1 and 2 in flight while channel 2 flushes its last run, channel 1 cleared already and then as given. -/
def clearing (one : Channel) : State :=
  let s := withChan .c2 { capture with state := .stopping .idle, mask := true } (withChan .c1 one busy)
  flying (req .channelMask 1 0 0x06 0 0) .active
    (.maskClear ((PerChan.const false).put .c1 true |>.put .c2 true) ((PerChan.const false).put .c2 true))
    { s with order := [.write (.run .c2) 0x47A310000 (bytesFrom 0 10)] }

/-- It ends with channel 2's flush where channel 1 is unmasked still, and stays in flight where channel 1 has been masked again. -/
theorem test_channelMaskClear_waits :
    (outcome (after .hostWriteIssue (clearing capture)), phase (after .hostWriteIssue (clearing { capture with mask := true, state := .finished })),
      ((after .hostWriteIssue (clearing { capture with mask := true, state := .finished })).chan .c2).mask) =
      (plain .ok, some .active, false) := by decide
/-- A soft request for a FROM MEMORY channel with nothing staged: STARVED, caused by request 0. -/
theorem test_channelRequestSet_starves :
    (let ch := (after .channelRequestSet (taking (req .channelRequest 3 1 0 0 0) (withChan .c1 { capture with dir := .fromMemory } busy))).chan .c1
     (ch.state, ch.owedFaults, ch.faultCauses)) = (.stalled, 0x20, [0]) := by decide
theorem test_channelRequestSet :
    ((after .channelRequestSet (taking (req .channelRequest 3 1 0 0 0) staged)).chan .c1).state = .ready := by decide
theorem test_channelRequestClear :
    ((after .channelRequestClear (taking (req .channelRequest 1 1 0 0 0)
      (withChan .c1 { capture with state := .ready, soft := true } busy))).chan .c1).state = .waiting := by decide
theorem test_channelStatus :
    outcome (after .channelStatus (taking (req .channelStatus 1 1 0 0 0) staged)) =
      some ⟨.ok, 10, [0x02, 0x00, 0x0A, 0x00, 0xF0, 0xFF, 0x1F, 0x00]⟩ := by decide
theorem test_dmaRequestRise : ((after (.dmaRequestRise .c1) staged).chan .c1).state = .ready := by decide
theorem test_dmaRequestRise_grants : (after (.dmaRequestRise .c1) (withChan .c1 capture board)).arb.owner = .dma .c1 := by decide
theorem test_dmaRequestFall_master : (after (.dmaRequestFall .c6) (mastering .c6 board)).arb.owner = .free := by decide
theorem test_stagingAgeLimit : (after (.stagingAgeLimit .c1) staged).order = [runWrite] := by decide

/-! ## Host mover (06) -/

theorem test_hostWriteIssue_writes :
    (readByte (after .hostWriteIssue { live with order := [.write .record 0x1000 [7, 8]] }).host.mem 0x1001,
      readByte (after .hostWriteIssue { live with order := [.write .record 0x1000 [7, 8]] }).host.mem 0x1002) =
      (some 8, none) := by decide
theorem test_hostWriteIssue_msi : (after .hostWriteIssue { live with order := [.write .msi 0 []] }).host.msis = 1 := by decide

/-- The playback channel of the worked example, just after CHANNEL NEXT: 64 bytes staged, the cursor at the next block. -/
def playback : State :=
  let s := withChan .c1 { capture with
    mode := .single, dir := .fromMemory, limit := 128, baseAddr := 0, baseCount := 0xFFF, curAddr := 0xFC0, curCount := 0x3F
    nextBlock := some ⟨0x0B, 0, 0xFFF⟩ } busy
  s.putStage .c1 { s.stage .c1 with
    chunks := [⟨4, 0xA0FC0, 0x47A310FC0, 64, some (stagedBytes .c1 false 0xA0FC0 (bytesFrom 0 64)), false⟩]
    cursor := ⟨0x0B, 0, 0xFFF, .reading, .next⟩, readId := 7 }

/-- The read formed there: 32 bytes at 0B0000h, host 0_51C0_7000h; the cursor at 0020h, 0FDFh, passed NEXT. -/
theorem test_prefetchReadForm_example :
    (((after (.prefetchReadForm .c1) playback).stage .c1).chunks.getLast?, ((after (.prefetchReadForm .c1) playback).stage .c1).cursor) =
      (some ⟨7, 0xB0000, 0x51C07000, 32, none, true⟩, ⟨0x0B, 0x20, 0xFDF, .reading, .next⟩) := by decide
/-- The failed read stages FFh and records HOST ERROR at its first byte. -/
theorem test_prefetchReadComplete_error :
    ((after (.prefetchReadComplete .c1 7 .error) (after (.prefetchReadForm .c1) playback)).chan .c1).owedFaults = 0x10 := by decide
theorem test_prefetchReadComplete_data :
    ((after (.prefetchReadComplete .c1 7 (.data (bytesFrom 100 32))) (after (.prefetchReadForm .c1) playback)).stage .c1).chunks.map
      (fun k => k.data.map List.head?) = [some (some (0xA0FC0, 0)), some (some (0xB0000, 100))] := by decide

/-- Channel 1's run has aged past the limit that a settings clear brings, and that clear also lets line 5 be delivered, which drains
channel 0. -/
def agedRuns : State :=
  let s := (staged.putChan .c0 { capture with curAddr := 0 }).putLine .l7 { LineRec.reset with inService := true }
  let s := s.putLine .l5 { LineRec.reset with mask := false, pending := true, drain := (PerChan.const false).put .c0 true }
  let s := s.putStage .c0 { s.stage .c0 with opened := some ⟨0xA1000, 0xA1000, 2, 0x47A311000, 0x47A311000, [7], 0⟩ }
  let s := s.putStage .c1 { s.stage .c1 with opened := some ⟨0xA0000, 0xA0009, 2, 0x47A310000, 0x47A310009, bytesFrom 0 10, 120⟩ }
  { s with settings := ⟨0xFF0F1001, 0, 6, 0⟩ }

/-- Channel 0's run takes its place first, although channel 1's age asks first (R103). -/
theorem test_one_event_in_channel_order :
    (after .tableClear (taking (req .tableClear 1 3 0 0 0) agedRuns)).order =
      [.write (.run .c0) 0x47A311000 [7], runWrite] := by decide

/-! ## Bus-master cards (07): the worked example's table -/

def master : State := mastering .c6 board

theorem test_masterWriteCycle_decided :
    (after (.masterWriteCycle 0x10FFC true 0xBBAA) master).order = [.write (.master 1) 0x23C000FFC [0xAA, 0xBB]] := by decide
theorem test_masterWriteCycle_unmapped : (after (.masterWriteCycle 0x20000 true 0xBBAA) master).order = [] := by decide

/-- After writes A, B, C and D, with A decided. -/
def fourWrites : State :=
  { master with
    order := [.write (.master 1) 0x23C000FFC [1, 2]]
    master := { master.master with buffer :=
      [⟨0x10FFC, [1, 2], 4, 0x23C000FFC, true⟩, ⟨0x10FFE, [3, 4], 4, 0x23C000FFE, false⟩,
       ⟨0x11000, [5, 6], 4, 0x23C001000, false⟩, ⟨0x11002, [7, 8], 4, 0x23C001002, false⟩] } }

/-- Once write 1 is issued, write 2 takes B alone, since C begins a new host frame. -/
theorem test_issue_decides_next :
    (after .hostWriteIssue fourWrites).order = [.write (.master 1) 0x23C000FFE [3, 4]] := by decide
/-- The read miss at 010FFEh decides B, then C with D, and places the fill behind them. -/
theorem test_masterReadCycle_miss :
    (after (.masterReadCycle 0x10FFE true) (after .hostWriteIssue fourWrites)).order =
      [.write (.master 1) 0x23C000FFE [3, 4], .write (.master 2) 0x23C001000 [5, 6, 7, 8], .read .fill] := by decide

/-- The fill sent, and the read at 010FFEh held for it. -/
def filling : State :=
  { master with master := { master.master with
      fill := some ⟨0x10FE0, 4, 0x23C000FE0, false⟩
      stretched := some ⟨.read 2 false, 0x10FFE, 4, 0x23C000FFE, ⟨16, 0⟩⟩ } }

theorem test_lineFillComplete_answers :
    (after (.lineFillComplete (.data (bytesFrom 0 32))) filling).master.answered = some [30, 31] := by decide
theorem test_lineFillComplete_error :
    (after (.lineFillComplete .error) filling).master.owedFault = some ⟨false, true, false, 0x10FFE, []⟩ := by decide
/-- The read at 010FF0h lies in the valid line and is answered at once. -/
theorem test_masterReadCycle_hit :
    (after (.masterReadCycle 0x10FF0 true) (after (.lineFillComplete (.data (bytesFrom 0 32))) filling)).master.answered =
      some [16, 17] := by decide

/-- A read at 010FFEh waits to form its fill behind an ignored one; the fill is formed with the 32 bytes at host 23C000FE0h, and is to be
ignored where the map has changed since. -/
def awaiting : State :=
  { filling with master := { filling.master with
      fill := some ⟨0x10FE0, 4, 0x23C000FE0, true⟩
      stretched := some ⟨.read 2 true, 0x10FFE, 4, 0x23C000FFE, ⟨16, 0⟩⟩ } }

/-- The same after a write of the map has made its entries invalid. -/
def awaitingUnmapped : State := { awaiting with map := State.reset.map }

theorem test_fill_formed_late :
    (after (.lineFillComplete .error) awaiting).master.fill = some ⟨0x10FE0, 4, 0x23C000FE0, false⟩ ∧
      (after (.lineFillComplete .error) awaitingUnmapped).master.fill = some ⟨0x10FE0, 4, 0x23C000FE0, true⟩ := by decide

/-- A write held while the buffer was full of decided entries, one of which has since been issued. -/
def heldWrite : State :=
  { master with master := { master.master with
      buffer := List.replicate 15 ⟨0x10FFC, [1, 2], 4, 0x23C000FFC, true⟩
      stretched := some ⟨.write [9], 0x13FFF, 4, 0x23C003FFF, ⟨16, 15⟩⟩ } }

theorem test_masterHeldWritePost :
    (after .masterHeldWritePost heldWrite).master.buffer.getLast? = some ⟨0x13FFF, [9], 4, 0x23C003FFF, false⟩ := by decide
/-- C and D follow one another within a host frame and go out as one write. -/
theorem test_masterWriteDecide :
    (after .masterWriteDecide { master with master := { master.master with buffer :=
      [⟨0x11000, [5, 6], 4, 0x23C001000, false⟩, ⟨0x11002, [7, 8], 4, 0x23C001002, false⟩] } }).order =
      [.write (.master 2) 0x23C001000 [5, 6, 7, 8]] := by decide

/-- Write E of the worked example: decided at once, and its bytes stand in the valid line. -/
theorem test_write_updates_line :
    (let t := after (.masterWriteCycle 0x10FF0 true 0xBBAA) (after (.lineFillComplete (.data (bytesFrom 0 32))) filling)
     (t.order, t.master.readLine.map (fun rl => (rl.bytes.drop 15).take 4))) =
      ([.write (.master 1) 0x23C000FF0 [0xAA, 0xBB]], some [15, 0xAA, 0xBB, 18]) := by decide

/-! ## Interrupt lines (08): the worked example's table -/

/-- Lines 5 (drain set 1) and 10 (drain set 5), EDGE, unmasked; channel 1 with an open run of 10 bytes. -/
def lines : State :=
  (staged.putLine .l5 { LineRec.reset with mask := false, drain := (PerChan.const false).put .c1 true }).putLine .l10
    { LineRec.reset with mask := false, drain := (PerChan.const false).put .c5 true }

/-- Step 1: line 5 rises, is the candidate in DRAINING, and channel 1's run is decided. -/
theorem test_interruptLineRise_step1 :
    ((after (.interruptLineRise .l5) lines).irq.delivery.map (fun d => (d.line, d.posting)),
      (after (.interruptLineRise .l5) lines).order) = (some (.l5, false), [runWrite]) := by decide
/-- Step 7: a second rise while pending sets the overrun mark. -/
theorem test_interruptLineRise_overrun :
    ((after (.interruptLineRise .l5) (staged.putLine .l5 { LineRec.reset with pending := true, inService := true })).lineRec .l5).overrun =
      true := by decide
theorem test_interruptLineFall_level :
    ((after (.interruptLineFall .l14) { live.putLine .l14 { LineRec.reset with level := true, pending := true } with
      pins := { live.pins with irq := live.pins.irq.put .l14 true } }).lineRec .l14).pending = false := by decide
/-- The line word of line 5: EDGE, mask clear, drain set channel 1 (bits 16 to 31). -/
theorem test_lineSet :
    ((after .lineSet (taking (req .lineSet 1 5 0x00020000 0 0) live)).lineRec .l5) =
      { LineRec.reset with mask := false, drain := (PerChan.const false).put .c1 true } := by decide
theorem test_lineSet_bad_drain :
    outcome (after .lineSet (taking (req .lineSet 1 5 0x00100000 0 0) live)) = plain .badRequest := by decide
theorem test_lineMaskSet :
    ((after .lineMaskSet (taking (req .lineMask 3 0 0x20 0 0) lines)).lineRec .l5).mask = true := by decide
theorem test_lineMaskClear_bad :
    outcome (after .lineMaskClear (taking (req .lineMask 1 0 0x2000 0 0) lines)) = plain .badRequest := by decide

/-- Lines 5 and 10 in service. -/
def inService : State :=
  (busy.putLine .l5 { LineRec.reset with inService := true }).putLine .l10 { LineRec.reset with inService := true }

/-- The non-specific end ends line 10, rank 2 against 9; with the rotate flag the line after it, 11, becomes the top. -/
theorem test_lineEndNonSpecific :
    (((after .lineEndNonSpecific (taking (req .lineEnd 5 0 0 0 0) inService)).lineRec .l10).inService,
      setTop (after .lineEndNonSpecific (taking (req .lineEnd 5 0 0 0 0) inService)).settings) = (false, .l11) := by decide
theorem test_lineEndSpecific_not_in_service :
    outcome (after .lineEndSpecific (taking (req .lineEnd 3 6 0 0 0) inService)) = plain .notInService := by decide
theorem test_linePoll_nothing : outcome (after .linePoll (taking (req .linePoll 1 0 0 0 0) live)) = plain .nothing := by decide
theorem test_linePoll_line14 :
    outcome (after .linePoll (taking (req .linePoll 1 0 0 0 0)
      (live.putLine .l14 { LineRec.reset with mask := false, pending := true, overrun := true }))) =
      some ⟨.ok, 0, [14, 1, 0, 0, 0, 0, 0, 0]⟩ := by decide

/-! ## Port streams (09): the worked example -/

/-- STREAM IN, port 0300h, WORD, total 1000, first segment 4. -/
def streamingIn : State := after .streamIn (taking (req .streamIn 0 1 0x300 1000 4) { busy with refresh := ⟨0, 0, 0, false, false⟩ })

theorem test_streamIn_places :
    streamingIn.stream.active.map (fun r => r.step.map (fun p => (p.host, p.off))) =
      some [(0x100000F00, 0), (0x100000F01, 1)] := by decide
theorem test_streamIn_short : outcome (after .streamIn (taking (req .streamIn 0 1 0x300 1000 127) busy)) =
    some ⟨.short, 0, [127, 127, 0, 0, 0, 0, 0, 0]⟩ := by decide
theorem test_streamStep_in :
    (after .streamStep streamingIn).xfer.map (fun x => (x.addr, x.left, x.isRead, x.waits)) = some (0x300, 2, true, 2) := by decide

/-- The same as STREAM OUT. -/
def streamingOut : State := after .streamOut (taking (req .streamOut 0 1 0x300 1000 4) busy)

theorem test_streamOut_reads :
    streamingOut.stream.active.map StreamRec.chunks = some [⟨0, 0, 64, 4, 0, none⟩] := by decide
theorem test_streamReadForm :
    (after .streamReadForm streamingOut).stream.active.map (fun r => r.chunks.map (fun k => (k.pos, k.len, k.off))) =
      some [(0, 64, 0), (64, 64, 64)] := by decide
theorem test_streamReadComplete_step :
    (after .streamStep (after (.streamReadComplete 0 (.data (bytesFrom 1 64))) streamingOut)).xfer.map Xfer.out =
      some [1, 2] := by decide
theorem test_streamReadComplete_error :
    outcome (after (.streamReadComplete 0 .error) streamingOut) = some ⟨.hostError, 0, [4, 0xFF, 0, 0, 0, 0, 0, 0]⟩ := by decide

/-- A STREAM IN of one byte to segment 5, with the respond flag clear, whose step has just completed. -/
def completed : State :=
  after (.hostCycleEnd false true 0x77)
    (after .streamStep (after .streamIn (taking (req .streamIn 0 0 0x300 1 5) board)))

/-- Its bytes are in the order, and it has retired; an abort of that moment still finds it (R48). -/
theorem test_streamIn_completes :
    (completed.order, completed.queue.records) = ([.write .piece 0x5000 [0x77]], []) := by decide
theorem test_abort_names_completed :
    (after (.queueAbort ⟨7, false⟩) completed).queue.controls.map (fun c => (c.answer.count, c.answer.data)) =
      [(0, [1, 0x05, 0x52, 0, 0, 0, 0, 0])] := by decide

/-! ## The return ring (10): the worked example -/

/-- After the credit of 10: a PORT READ response, the post of line 5, three merged terminal counts and REFRESH LATE wait. -/
def returning : State :=
  { (fullRing.putChan .c1 { capture with tcOwed := 3 }) with
    ret := ⟨true, 0x1000, 64, 64, 10, false⟩
    queue := { fullRing.queue with
      records := [req .portRead 1 1 0x300 0 0]
      exec := some { Exec.take (req .portRead 1 1 0x300 0 0) with
        phase := .ended, answer := ⟨.ok, 1, [0xAB, 0, 0, 0, 0, 0, 0, 0]⟩, responds := true }
      place := .response }
    irq := { (fullRing.putLine .l5 { LineRec.reset with mask := false, pending := true }).irq with
      delivery := some ⟨.l5, true, Waits.zero, []⟩ }
    refresh := { fullRing.refresh with late := true } }

/-- The response takes slot 0 with phase 0, and the request retires. -/
theorem test_returnRecordWrite_response :
    ((after .returnRecordWrite returning).order, (after .returnRecordWrite returning).ret.w, (after .returnRecordWrite returning).queue.records) =
      ([.write .record 0x1000 [0x01, 0x52, 0x01, 0x00, 1, 0, 0, 0, 0xAB, 0, 0, 0, 0, 0, 0, 0]], 65, []) := by decide
/-- The post of line 5 takes slot 1, and line 5 enters service. -/
theorem test_returnRecordWrite_post :
    ((after .returnRecordWrite (after .returnRecordWrite returning)).order.getLast?,
      ((after .returnRecordWrite (after .returnRecordWrite returning)).lineRec .l5).inService) =
      (some (.write .record 0x1010 [0x02, 5, 0, 0, 0, 0, 0, 0, 0, 0, 0, 0, 0, 0, 0, 0]), true) := by decide

/-- A LINE MASK clear that has made a LEVEL line 5 the candidate waits for a full ring, with an abort behind it and a terminal count of
channel 1 owed; then ten records are credited. -/
def abortedUnmask : State :=
  after (.ringCredit ⟨1, false⟩ false false false 10) (after (.queueAbort ⟨7, false⟩) (after .lineMaskClear
    (taking (req .lineMask 1 0 0x20 0 0)
      { (fullRing.putChan .c1 { capture with tcOwed := 3 }).putLine .l5 { LineRec.reset with level := true, pending := true } with
        pins := { State.reset.pins with irq := State.reset.pins.irq.put .l5 true } })))

/-- The first three bytes of each record in the order of host writes. -/
def heads (s : State) : List (List Byte) :=
  s.order.map (fun i => match i with
    | .write _ _ bs => bs.take 3
    | .read _ => [])

/-- After the response, and after the record that goes ahead of the abort's answer. -/
def answerHeld : State := after .returnRecordWrite abortedUnmask
def answerFree : State := after .returnRecordWrite answerHeld

/-- The response goes first, then the LINE record that the request caused, then the abort's answer; the CHANNEL END is no doing of the
request and stands behind it (R50, R165). -/
theorem test_abort_answer_behind :
    heads (after .returnRecordWrite (after .returnRecordWrite answerFree)) = [[1, 0x52, 0x19], [2, 5, 0], [1, 7, 0x34], [3, 1, 3]] := by
  decide
/-- A candidate that is dropped and selected afresh is no doing of the request, and holds back nothing (R139). -/
theorem test_abort_answer_after_drop :
    heads (after .returnRecordWrite (after .returnRecordWrite
      (after (.interruptLineRise .l5) (after (.interruptLineFall .l5) answerHeld)))) = [[1, 0x52, 0x19], [1, 7, 0x34], [2, 5, 0]] := by
  decide

/-- The same with a later request's response waiting. -/
def answerThird : State := after .identify (after (.queuedKindAppend ⟨req .identify 1 0 0 0 0, false⟩) (after (.queueResume ⟨1, false⟩ false) answerHeld))

/-- A response that waits goes ahead of the post, and the held answer behind both (R137). -/
theorem test_response_ahead_of_post :
    heads (after .returnRecordWrite (after .returnRecordWrite (after .returnRecordWrite answerThird))) =
      [[1, 0x52, 0x19], [1, 0x52, 0x29], [2, 5, 0], [1, 7, 0x34]] := by decide

/-! ## Management requests (11) -/

/-- Word 0 of window 2, merged bit by bit; bits that hold no field stay 0. -/
theorem test_tableWriteWindow :
    ((after .tableWriteWindow (taking (req .tableWrite 1 0 2 0xFFFFFFFE 0xFFFF0F01) board)).windows.toList.getD 2 Entry.zero).w0 =
      0x00FF0150 := by decide
theorem test_tableWriteWindow_bad_entry :
    outcome (after .tableWriteWindow (taking (req .tableWrite 1 0 0x00020002 0x2FF 0xFFFFFFFF) board)) = plain .badEntry := by decide
theorem test_tableWriteMap :
    ((after .tableWriteMap (taking (req .tableWrite 1 1 0x00030004 0xFFFFFFFF 0xFFFFFFFE) board)).map.toList.getD 4 Entry.zero).w3 =
      0x000FFFFE := by decide
theorem test_tableWriteSegment_bad_next :
    outcome (after .tableWriteSegment (taking (req .tableWrite 0 2 4 0x4000 0xFF00) board)) = plain .badEntry := by decide
theorem test_tableWriteSettings_clamped :
    ((after .tableWriteSettings (taking (req .tableWrite 1 3 0 0x00010103 0xFFFFFFFF) board)).settings.w0,
      outcome (after .tableWriteSettings (taking (req .tableWrite 1 3 0 0x00010103 0xFFFFFFFF) board))) =
      (0x00050202, plain .clamped) := by decide
theorem test_tableWriteSettings_top :
    (after .tableWriteSettings (taking (req .tableWrite 1 3 0x00020000 0x0D 0xFF) board)).settings.w2 = 14 := by decide
theorem test_tableRead_last_word :
    outcome (after .tableRead (taking (req .tableRead 0 1 0x00030002 0 0) board)) =
      some ⟨.ok, 8, [0, 0, 0, 0, 0, 0, 0, 0]⟩ := by decide
theorem test_tableRead :
    outcome (after .tableRead (taking (req .tableRead 0 1 0x00010002 0 0) board)) =
      some ⟨.ok, 8, [0x0F, 0, 0, 0, 0x10, 0xA3, 0x47, 0x00]⟩ := by decide
theorem test_tableClear_settings :
    (after .tableClear (taking (req .tableClear 1 3 0 0 0) { board with settings := ⟨2, 3, 4, 0⟩ })).settings =
      ⟨0x0A0F1001, 0, 9, 0⟩ := by decide
theorem test_tableClear_bad : outcome (after .tableClear (taking (req .tableClear 0 3 1 0 0) board)) = plain .badRequest := by decide
theorem test_identify_held :
    outcome (after .identify (taking (req .identify 0 0 0 0 0) State.reset)) =
      some ⟨.ok, 0x4B33, [1, 64, 32, 32, 64, 7, 11, 0]⟩ := by decide

/-! ## Witnesses: for each obligation with hypotheses, states and operands that meet them together, at boundary values where a clause
has a range -/

theorem all_chans {p : Chan → Prop} (h : ∀ c, c ∈ Chan.all → p c) : ∀ c, p c := fun c => h c (by cases c <;> decide)

theorem all_lines {p : Line → Prop} (h : ∀ l, l ∈ Line.ring → p l) : ∀ l, p l := fun l => h l (by cases l <;> decide)

theorem calm_of {s : State} (h : s.pending = [] ∧ (refreshRuns s = true → s.refresh.timer + 1 < setRefreshPeriod s.settings) ∧
    ∀ c, c ∈ Chan.all → (s.stage c).opened = none) : Calm s := ⟨h.1, h.2.1, all_chans h.2.2⟩

theorem taken_taking (r : Record) (s : State) : takenRecord (taking r s) = some r := rfl

theorem justTaken_taking (r : Record) (s : State) : JustTaken (taking r s) (Exec.take r) := ⟨rfl, rfl, rfl⟩

/-- A master tenure one microsecond short of its hold limit, and one short of the next refresh. -/
def lastTick : State :=
  { busy with
    arb := { busy.arb with meter := 98 }, settings := ⟨0x0A0F1001, 0x6400, 9, 0⟩, refresh := ⟨13, 0, 0, false, false⟩ }

/-- A cycle in progress, a held read and an open run, each one microsecond short of its limit, on a bus that no master holds. -/
def lateCycle : State := { extended wordRead with slot := { (extended wordRead).slot with readyTimer := some ⟨16, 15⟩ } }
def lateHeld : State :=
  { filling with master := { filling.master with stretched := some ⟨.read 2 false, 0x10FFE, 4, 0x23C000FFE, ⟨16, 15⟩⟩ } }
def lateRun : State := { staged with arb := live.arb }
def latePulse (elapsed : Nat) (l : ResetLine) : State :=
  { pulsing 1 l with slot := { (pulsing 1 l).slot with pulse := some ⟨1, 1, elapsed⟩ } }

/-- Each timer one microsecond short of its limit, and the reset and settle timers two short as well. -/
theorem witness_IdleStepCountsOneMicrosecond :
    (lastTick.slot.readyTimer = none ∧ lastTick.master.stretched = none ∧ lastTick.slot.pulse = none ∧ Calm lastTick ∧
      lastTick.arb.owner = .master ∧ lastTick.arb.meter + 1 < setMasterHold lastTick.settings) ∧
    (∃ v, Calm lateCycle ∧ lateCycle.slot.cycle ≠ none ∧ lateCycle.master.stretched = none ∧ lateCycle.slot.pulse = none ∧
      exec .readyLimitExpiry { lateCycle with
        queue := lateCycle.queue.settled, slot := { lateCycle.slot with readyTimer := some ⟨16, 16⟩ } } = .next v ∧
      lateCycle.arb.owner ≠ .master) ∧
    (Calm lateHeld ∧ lateHeld.slot.readyTimer = none ∧ lateHeld.slot.cycle = none ∧ lateHeld.slot.pulse = none ∧
      setMasterHold lateHeld.settings = 0 ∧ ∃ x, lateHeld.master.stretched = some x ∧ x.timer.limit ≤ x.timer.elapsed + 1) ∧
    (let s := { lastTick with arb := { lastTick.arb with meter := 99 } }
     Calm s ∧ s.arb.owner = .master ∧ setMasterHold s.settings ≤ s.arb.meter + 1) ∧
    (let s := { live with refresh := ⟨14, 0, 0, false, false⟩ }
     s.pending = [] ∧ s.arb.owner ≠ .master ∧ refreshRuns s = true ∧ setRefreshPeriod s.settings ≤ s.refresh.timer + 1) ∧
    (∃ r, Calm { lateRun with staging := lateRun.staging.put .c1 { lateRun.stage .c1 with opened := none } } ∧
      lateRun.arb.owner ≠ .master ∧ (lateRun.stage .c1).opened = some r ∧ setAgeLimit lateRun.settings ≤ r.age + 1) ∧
    (Calm (latePulse 999 .asserted) ∧ Calm (latePulse 999 .settling) ∧ Calm (latePulse 998 .asserted) ∧
      Calm (latePulse 998 .settling) ∧ (latePulse 999 .settling).arb.owner ≠ .master ∧
      (latePulse 999 .settling).slot.pulse = some ⟨1, 1, 999⟩) :=
  ⟨⟨by decide, by decide, by decide, calm_of (by decide), by decide, by decide⟩,
    ⟨_, calm_of (by decide), by decide, by decide, by decide, rfl, by decide⟩,
    ⟨calm_of (by decide), by decide, by decide, by decide, by decide, _, rfl, by decide⟩,
    ⟨calm_of (by decide), by decide, by decide⟩, by decide, ⟨_, calm_of (by decide), by decide, rfl, by decide⟩,
    ⟨calm_of (by decide), calm_of (by decide), calm_of (by decide), calm_of (by decide), by decide, by decide⟩⟩

theorem witness_IntakeAppendsOrDiscards :
    0x800 ≤ (0x800 : BitVec 12).toNat ∧
    ((0x7FF : BitVec 12).toNat < 0x800 ∧ live.intake.discards ≤ 255 ∧ wholePieces 0x7FF ([some (1 : Byte)].map Option.isSome) = false) ∧
    knownKind 0x35 = false ∧
    { live with queue := { live.queue with records := List.replicate 63 (req .fence 0 0 0 0 0) } }.queue.records.length < 64 ∧
    (64 ≤ fullQueue.queue.records.length ∧ fullQueue.intake.discards ≤ 255) ∧
    ((0xFFF : BitVec 12).toNat + 1 ≤ 4096 ∧ (0x7FF : BitVec 12).toNat + 6 ≤ 4096) := by decide

theorem witness_RingSetStartsANewRing :
    ∀ v, v ∈ [((63 : Word), 64), (127, 64), (128, 128), (4096, 4096), (0xFFFFFFFF, 4096)] →
      (0xFFFFFFFFFFFFFFF0 : BitVec 64).toNat = (0xFFFFFFFFFFFFFFFF : BitVec 64).toNat / 16 * 16 ∧
      v.2 ∈ [64, 128, 256, 512, 1024, 2048, 4096] ∧ (v.2 ≤ v.1.toNat ∨ (v.2 = 64 ∧ v.1.toNat < 64)) ∧
      ∀ y, y ∈ [64, 128, 256, 512, 1024, 2048, 4096] → y ≤ v.1.toNat → y ≤ v.2 := by decide

theorem witness_RingCreditRaisesCAndArms :
    64 = min (min (0xFFFF : BitVec 16).toNat 4096) (fullRing.ret.w - fullRing.ret.c).toNat ∧
    63 = min (min (63 : BitVec 16).toNat 4096) (fullRing.ret.w - fullRing.ret.c).toNat := by decide

/-- A number of control answers waits. -/
def answering (n : Nat) (s : State) : State :=
  { s with queue := { s.queue with controls := List.replicate n ⟨0x32, 1, ⟨.ok, 0, zeros8⟩, true, none⟩ } }

theorem witness_QueueHaltActsByQueueState :
    (16 ≤ (answering 16 live).queue.controls.length ∧ (answering 16 live).intake.discards ≤ 255) ∧
    ((answering 15 live).queue.controls.length < 16 ∧ (answering 15 live).queue.state = .running ∧
      (answering 15 live).queue.exec = none) ∧
    (board.queue.controls.length < 16 ∧ wordRead.queue.state = .running ∧ wordRead.queue.exec ≠ none ∧
      wordRead.queue.waitHalt = false) ∧
    ((after (.queueHalt ⟨1, false⟩ false) wordRead).queue.state = .running ∧ (after (.queueHalt ⟨1, false⟩ false) wordRead).queue.exec ≠ none ∧
      (after (.queueHalt ⟨1, false⟩ false) wordRead).queue.waitHalt = true) ∧
    fullQueue.queue.state ≠ .running := by decide

theorem witness_QueueResumeRunsTheQueue :
    (16 ≤ (answering 16 fullQueue).queue.controls.length ∧ (answering 16 fullQueue).intake.discards ≤ 255) ∧
    (answering 15 fullQueue).queue.controls.length < 16 := by decide

theorem witness_QueueAbortEmptiesAnUnstartedQueue :
    (16 ≤ (answering 16 fullQueue).queue.controls.length ∧ (answering 16 fullQueue).intake.discards ≤ 255) ∧
    ((answering 15 fullQueue).queue.controls.length < 16 ∧ (answering 15 fullQueue).queue.finished = none ∧
      ∀ e, (answering 15 fullQueue).queue.exec = some e → e.phase = .taken ∨ e.phase = .waiting) ∧
    ((taking (req .identify 1 0 0 0 0) live).queue.controls.length < 16 ∧
      ∀ e, (taking (req .identify 1 0 0 0 0) live).queue.exec = some e → e.phase = .taken ∨ e.phase = .waiting) ∧
    (completed.queue.controls.length < 16 ∧ completed.queue.exec = none ∧
      completed.queue.finished = some (req .streamIn 0 0 0x300 1 5)) ∧
    (∃ e, (after (.queueResume ⟨1, false⟩ false) streamingIn).queue.exec = some e ∧ e.phase = .waiting) :=
  ⟨by decide, ⟨by decide, by decide, fun _ h => by cases h⟩, ⟨by decide, fun _ h => by cases h; exact .inl rfl⟩,
    ⟨by decide, by decide, by decide⟩, _, rfl, by decide⟩

/-- A STREAM OUT in flight with a byte of its read moved. -/
def midStream : StreamRec :=
  { isIn := false, port := 0x300, wordWide := false, words := true, waits := 2, report := false, total := 1000, seg := 4, off := 64
    use := 0, placed := 64, walkEnd := none, moved := 1, chunks := [⟨0, 1, 63, 4, 1, some (bytesFrom 1 63)⟩], step := []
    piece := none, firstFault := none, lastSeg := 4, used := 1, endingNext := none }

def streaming : State :=
  { flying (req .streamOut 1 0 0x300 1000 4) .active .nothing busy with stream := ⟨some midStream, 1⟩ }

/-- The same with its step on the bus. -/
def stepping : State :=
  let x := stepXfer midStream 1 [1]
  { streaming with
    xfer := some x, arb := { live.arb with owner := .hostPath }, slot := { live.slot with cycle := some x.cycle } }

/-- A FENCE that waits for the 10 bytes of channel 1. -/
def fencing : State := after .fence (taking (req .fence 1 0 0x02 0 0) staged)

/-- The same after a RING CREDIT whose answer took the sequencer's place, as part of a write that goes on or alone. -/
def fencingAnswered (more : Bool) : State := after (.ringCredit ⟨1, more⟩ true false false 0) fencing

/-- A QUEUE ABORT that ends the FENCE: of one write with the answer, the response goes first; in a later write, the answer does (R46,
R160). -/
theorem test_answer_of_the_same_write :
    ((after (.queueAbort ⟨7, false⟩) (fencingAnswered true)).queue.place, (after (.queueAbort ⟨7, false⟩) (fencingAnswered false)).queue.place) =
      (.response, .control) := by decide

/-- A LINE POLL that waits for the drain of line 5. -/
def polling : State :=
  after .linePoll (taking (req .linePoll 1 0 0 0 0) (lines.putLine .l5 { lines.lineRec .l5 with pending := true }))

theorem witness_QueueAbortWaitsForStartedWork :
    (∀ s, s ∈ [streaming, stepping, fencing, polling, flying (req .slotReset 1 0 1 0 0) .active .nothing live, returning] →
      s.queue.controls.length < 16 ∧ ∃ e, s.queue.exec = some e ∧ (e.phase = .active ∨ e.phase = .ended)) ∧
    (∃ e n w, fencing.queue.exec = some e ∧ fencing.queue.waitAbort = false ∧ e.phase = .active ∧ e.request.kind = .fence ∧
      e.work = .fence n w) ∧
    (∃ e, polling.queue.exec = some e ∧ polling.queue.waitAbort = false ∧ e.phase = .active ∧ e.request.kind = .linePoll) ∧
    (∃ e x, stepping.queue.exec = some e ∧ stepping.queue.waitAbort = false ∧ e.phase = .active ∧ e.request.kind = .streamOut ∧
      stepping.arb.owner = .hostPath ∧ stepping.xfer = some x) ∧
    (∃ e r, streaming.queue.exec = some e ∧ streaming.queue.waitAbort = false ∧ e.phase = .active ∧ e.request.kind = .streamOut ∧
      streaming.arb.owner ≠ .hostPath ∧ streaming.stream.active = some r) ∧
    (∃ e, returning.queue.exec = some e ∧ e.phase = .ended) ∧
    (∃ e n w, (fencingAnswered true).queue.exec = some e ∧ (fencingAnswered true).queue.controls.length < 16 ∧
      (fencingAnswered true).queue.waitAbort = false ∧ e.phase = .active ∧ e.request.kind = .fence ∧ e.work = .fence n w ∧
      (fencingAnswered true).queue.place = .control ∧ (fencingAnswered true).queue.tied = true ∧
      respondsWith e.request .aborted = true) := by
  refine ⟨?_, ⟨_, _, _, rfl, by decide, rfl, rfl, rfl⟩, ⟨_, rfl, by decide, rfl, rfl⟩, ⟨_, _, rfl, by decide, rfl, rfl, rfl, rfl⟩,
    ⟨_, _, rfl, by decide, rfl, rfl, by decide, rfl⟩, ⟨_, rfl, rfl⟩, ⟨_, _, _, rfl, by decide, by decide, rfl, rfl, rfl, by decide⟩⟩
  intro s h
  simp only [List.mem_cons, List.not_mem_nil, or_false] at h
  rcases h with rfl | rfl | rfl | rfl | rfl | rfl
  · exact ⟨by decide, _, rfl, .inl rfl⟩
  · exact ⟨by decide, _, rfl, .inl rfl⟩
  · exact ⟨by decide, _, rfl, .inl rfl⟩
  · exact ⟨by decide, _, rfl, .inl rfl⟩
  · exact ⟨by decide, _, rfl, .inl rfl⟩
  · exact ⟨by decide, _, rfl, .inr rfl⟩

/-! ### Windows and cycles -/

/-- Whether a window holds an address, as a truth value. -/
def holdsB (e : Entry) (sp : Space) (a : Nat) : Bool := e.valid && decide (winSpace e = sp) && decide (winBase e ≤ a) && decide (a ≤ winLimit e)

theorem holdsB_iff (e : Entry) (sp : Space) (a : Nat) : holdsB e sp a = true ↔ windowHolds e sp a := by
  simp [holdsB, windowHolds, and_assoc]

theorem decides_of {s : State} {n : Nat} {e : Entry} {sp : Space} {a : Nat} (h : s.windows.toList[n]? = some e)
    (hb : holdsB e sp a = true) (hn : (s.windows.toList.take n).all (fun w => !holdsB w sp a) = true) : Decides s n e sp a := by
  refine ⟨h, (holdsB_iff ..).1 hb, fun m w hm hw hc => ?_⟩
  have := List.all_eq_true.1 hn w (List.mem_of_getElem? (i := m) (by rw [List.getElem?_take, if_pos hm]; exact hw))
  simp [(holdsB_iff ..).2 hc] at this

theorem none_holds {s : State} {sp : Space} {a : Nat} (h : s.windows.toList.all (fun w => !holdsB w sp a) = true) :
    ∀ e, e ∈ s.windows.toList → ¬ windowHolds e sp a := by
  intro e he hc
  have := List.all_eq_true.1 h e he
  simp [(holdsB_iff ..).2 hc] at this

theorem witness_SlotRequestsAreAnsweredOnTheBoard :
    (¬ slotCheck .port (req .portRead 1 2 0x10000 0 0) ∧ ¬ slotCheck .port (req .portRead 1 3 0 0 0) ∧
      ¬ slotCheck .memory (req .memoryRead 1 4 0x1000000 0 0) ∧ ¬ slotCheck .memory (req .memoryRead 1 0 0 0 0)) ∧
    (slotCheck .port (req .portWrite 1 2 0xFFFF 0 0) ∧ State.reset.slot.held = true) ∧
    (slotCheck .memory (req .memoryWrite 1 4 0xFFFFFF 0 0) ∧ board.slot.held = false ∧
      ∀ e, e ∈ board.windows.toList → ¬ windowHolds e .memory 0xFFFFFF) ∧
    (Decides board 2 ⟨0x51, 0x300, 0x31F, 0⟩ .port 0x31F ∧ winLimit ⟨0x51, 0x300, 0x31F, 0⟩ < 0x31F + 2 - 1) ∧
    (Decides board 7 ⟨0x9, 0x300, 0x3FF, 0⟩ .port 0x3FE ∧ 0x3FE + 2 - 1 ≤ winLimit ⟨0x9, 0x300, 0x3FF, 0⟩ ∧
      winAction ⟨0x9, 0x300, 0x3FF, 0⟩ = 2) ∧
    (Decides board 6 ⟨0xFF0007, 0xC0000, 0xDFFFF, 0⟩ .memory 0xDFFFC ∧ 0xDFFFC + 4 - 1 ≤ winLimit ⟨0xFF0007, 0xC0000, 0xDFFFF, 0⟩ ∧
      winAction ⟨0xFF0007, 0xC0000, 0xDFFFF, 0⟩ = 1) := by
  refine ⟨by unfold slotCheck; decide, ⟨by unfold slotCheck; decide, by decide⟩,
    ⟨by unfold slotCheck; decide, by decide, none_holds (by decide)⟩, ⟨decides_of rfl (by decide) (by decide), by decide⟩,
    ⟨decides_of rfl (by decide) (by decide), by decide, by decide⟩, ⟨decides_of rfl (by decide) (by decide), by decide, by decide⟩⟩

theorem witness_ForwardedRequestAsksForTheBus :
    (slotCheck .port (req .portRead 1 2 0x31E 0 0) ∧ board.slot.held = false ∧ Decides board 2 ⟨0x51, 0x300, 0x31F, 0⟩ .port 0x31E ∧
      0x31E + 2 - 1 ≤ winLimit ⟨0x51, 0x300, 0x31F, 0⟩ ∧ winAction ⟨0x51, 0x300, 0x31F, 0⟩ = 0) ∧
    (slotCheck .memory (req .memoryWrite 1 4 0xC87FC 0 0) ∧ Decides busy 0 ⟨0x33, 0x0C8000, 0x0C87FF, 0⟩ .memory 0xC87FC ∧
      0xC87FC + 4 - 1 ≤ winLimit ⟨0x33, 0x0C8000, 0x0C87FF, 0⟩ ∧ winAction ⟨0x33, 0x0C8000, 0x0C87FF, 0⟩ = 0) ∧
    busy.arb.owner ≠ .free ∧ busy.slot.held = false ∧
    (board.arb.owner = .free ∧ board.slot.line ≠ .asserted ∧ board.refresh.owed = 0 ∧
      ∀ d, d ∈ board.dma.order → (board.chan d).state ≠ .ready) := by
  refine ⟨⟨by unfold slotCheck; decide, by decide, decides_of rfl (by decide) (by decide), by decide, by decide⟩,
    ⟨by unfold slotCheck; decide, decides_of rfl (by decide) (by decide), by decide, by decide⟩, by decide, by decide, by decide⟩

/-- A cycle and a transfer of the host path as HOST_CYCLE_END finds them at ready. -/
def hostReady (s : State) (sense : Bool) (left : Nat) : Bool :=
  match s.slot.cycle, s.xfer with
  | some cyc, some x =>
    cyc.phase = .running && cyc.owner = .hostPath && (cyc.kind = .byte || cyc.kind = .word) && cyc.sense = none && !cyc.ready &&
      !cyc.check && !x.stopped && !x.aborted && x.left = left && (cyc.kind = .word && sense || cyc.kind = .byte || !sense)
  | _, _ => false

/-- The word cycle of `wordRead` without sense leaves one byte; with sense none; the byte cycle that follows leaves none. -/
theorem witness_HostCycleEndMovesItsBytes :
    hostReady wordRead false 2 = true ∧ hostReady wordRead true 2 = true ∧
    hostReady (after (.hostCycleEnd false true 0) wordRead) false 1 = true ∧
    (∃ x, wordRead.xfer = some x ∧ x.forStream = false) ∧ ∃ e, wordRead.queue.exec = some e :=
  ⟨by decide, by decide, by decide, ⟨_, rfl, rfl⟩, _, rfl⟩

/-- A unit of a VERIFY channel in progress. -/
def verifying (m : ChanMode) (cc : BitVec 16) : State :=
  inTenure .c1 { capture with mode := m, dir := .verify, curCount := cc, limit := 16 } board

theorem witness_ReadyLowExtendsUntilReleased :
    (∃ cyc, (after (.hostCycleEnd false true 0) wordRead).slot.cycle = some cyc ∧ cyc.phase = .running ∧ cyc.owner = .hostPath ∧
      cyc.kind ≠ .word) ∧
    (∃ cyc, wordRead.slot.cycle = some cyc ∧ cyc.phase = .running ∧ cyc.owner = .hostPath ∧ cyc.kind = .word ∧ cyc.sense = none) ∧
    (∃ cyc, (verifying .demand 1).slot.cycle = some cyc ∧ cyc.phase = .running ∧ cyc.owner.isDma = true ∧ cyc.kind = .unit) ∧
    (∃ cyc, (refreshing 1 live).slot.cycle = some cyc ∧ cyc.phase = .running ∧ cyc.owner = .refresh ∧ cyc.kind = .refresh) ∧
    (∃ cyc, (after (.hostCycleEnd true false 0) wordRead).slot.cycle = some cyc ∧ cyc.phase = .extended ∧ cyc.owner = .hostPath ∧
      (after (.hostCycleEnd true false 0) wordRead).xfer ≠ none ∧ cyc.sense ≠ none) ∧
    (∃ cyc, (extended (verifying .demand 1)).slot.cycle = some cyc ∧ cyc.phase = .extended ∧ cyc.owner.isDma = true ∧
      cyc.kind = .unit) ∧
    (∃ cyc, (extended (refreshing 1 live)).slot.cycle = some cyc ∧ cyc.phase = .extended ∧ cyc.owner = .refresh ∧
      cyc.kind = .refresh) := by
  refine ⟨⟨_, rfl, ?_⟩, ⟨_, rfl, ?_⟩, ⟨_, rfl, ?_⟩, ⟨_, rfl, ?_⟩, ⟨_, rfl, ?_⟩, ⟨_, rfl, ?_⟩, ⟨_, rfl, ?_⟩⟩ <;> decide

/-- A port read of two bytes under a REPORT window of the worked example, its first byte cycle EXTENDED. -/
def reported : State := extended (after .portRead (taking (req .portRead 1 2 0x220 0 0) board))

/-- The first unit of a word channel's FROM MEMORY pass, its bytes at the front of the buffer. -/
def playing : State :=
  let s := inTenure .c5 { Channel.reset with mode := .demand, dir := .fromMemory, page := 0x13, curAddr := 0xFFFE, curCount := 2 } board
  s.putStage .c5 { s.stage .c5 with
    chunks := [⟨0, 0x13FFFC, 0x47A300000, 2, some (stagedBytes .c5 false 0x13FFFC [1, 2]), false⟩] }

/-- A unit at the last place of a host frame and of its map entry, with no run open. -/
def toTop : State := inTenure .c1 { capture with curAddr := 0xFFFF, curCount := 0x10 } board

/-- A unit of channel 1 in progress, with an open run as given, in either direction, with stop-on-fault or without. -/
def capturing (down stop : Bool) (page : BitVec 8) (a : BitVec 16) (r : Option Run) : State :=
  let s := inTenure .c1 { capture with decrement := down, stopOnFault := stop, page := page, curAddr := a, curCount := 0x100 } board
  s.putStage .c1 { s.stage .c1 with opened := r }

/-- An open run of `n` bytes in map entry 2, `a` above its first byte. -/
def runAt (a n : Nat) : Run := ⟨0xA0000 + a, 0xA0000 + a + n - 1, 2, 0x47A310000 + a, 0x47A310000 + a + n - 1, bytesFrom 0 n, 7⟩

theorem witness_ReadyLimitFaultsTheOwner :
    (∃ cyc, (extended (refreshing 1 live)).slot.cycle = some cyc ∧ cyc.phase = .extended ∧ cyc.owner = .refresh ∧
      (extended (refreshing 1 live)).slot.slotFault = none) ∧
    (∃ cyc x e, (extended wordRead).slot.cycle = some cyc ∧ (extended wordRead).xfer = some x ∧
      (extended wordRead).queue.exec = some e ∧ cyc.phase = .extended ∧ cyc.owner = .hostPath ∧ x.report = false ∧
      x.forStream = false ∧ x.firstFault = none) ∧
    (∃ cyc x, reported.slot.cycle = some cyc ∧ reported.xfer = some x ∧ cyc.phase = .extended ∧ cyc.owner = .hostPath ∧
      x.report = true ∧ x.stopped = false ∧ x.aborted = false ∧ cyc.kind ∈ [.byte, .word] ∧ cyc.kind = .byte ∧ 1 < x.left) ∧
    (∃ cyc, (extended (verifying .demand 1)).slot.cycle = some cyc ∧ cyc.phase = .extended ∧ cyc.owner = .dma .c1 ∧
      cyc.discard = false ∧ cyc.tc = false ∧ ((extended (verifying .demand 1)).chan .c1).dir = .verify ∧
      ((extended (verifying .demand 1)).chan .c1).state = .active ∧
      ((extended (verifying .demand 1)).chan .c1).stopOnFault = false) ∧
    (∃ cyc, (extended toTop).slot.cycle = some cyc ∧ cyc.phase = .extended ∧ cyc.owner = .dma .c1 ∧ cyc.discard = false ∧
      cyc.tc = false ∧ ((extended toTop).chan .c1).dir = .toMemory ∧ ((extended toTop).chan .c1).state = .active ∧
      ((extended toTop).chan .c1).stopOnFault = false ∧ lookupMap toTop.map cyc.addr .write = .found 2 0x47A31FFFF ∧
      ((extended toTop).stage .c1).opened = none ∧ ((extended toTop).chan .c1).faults = 0) ∧
    (∃ cyc, (extended (capturing true false 0x0B 7 (some (runAt 8 8)))).slot.cycle = some cyc ∧ cyc.phase = .extended ∧
      cyc.owner = .dma .c1 ∧ cyc.discard = false ∧ cyc.tc = false ∧ lookupMap board.map cyc.addr .write = .denied) ∧
    (∃ cyc k ks bs, (extended playing).slot.cycle = some cyc ∧ ((extended playing).stage .c5).chunks = k :: ks ∧
      k.data = some bs ∧ cyc.phase = .extended ∧ cyc.owner = .dma .c5 ∧ cyc.discard = false ∧ cyc.tc = false ∧
      ((extended playing).chan .c5).dir = .fromMemory ∧ ((extended playing).chan .c5).state = .active ∧
      ((extended playing).chan .c5).stopOnFault = false) ∧
    (∃ x, filling.slot.cycle = none ∧ filling.master.stretched = some x) ∧
    (∃ x, heldWrite.slot.cycle = none ∧ heldWrite.master.stretched = some x) := by
  refine ⟨⟨_, rfl, ?_⟩, ⟨_, _, _, rfl, rfl, rfl, ?_⟩, ⟨_, _, rfl, rfl, ?_⟩, ⟨_, rfl, ?_⟩, ⟨_, rfl, ?_⟩, ⟨_, rfl, ?_⟩,
    ⟨_, _, _, _, rfl, rfl, rfl, ?_⟩, ⟨_, rfl, rfl⟩, ⟨_, rfl, rfl⟩⟩ <;> decide

/-- The run that the ready limit of a unit begins is of age 0 (R109). -/
theorem test_tick_ages_from_staging :
    (match step { extended toTop with slot := { (extended toTop).slot with readyTimer := some ⟨16, 15⟩ } } with
      | .next t => (t.stage .c1).opened.map Run.age
      | _ => none) = some 0 := by decide

/-! ### Units, refresh, checks -/

/-- The facts every unit's end starts from, as a truth value. -/
def unitReady (c : Chan) (tc : Bool) (s : State) : Bool :=
  match s.slot.cycle with
  | some cyc =>
    cyc.phase = .running && cyc.kind = .unit && cyc.owner = .dma c && !cyc.discard && !cyc.ready && !cyc.check && cyc.tc == tc &&
      s.arb.owner = .dma c && (s.chan c).state = .active
  | none => false

theorem witness_UnitCycleEndStepsTheChannel :
    (unitReady .c1 false (verifying .demand 1) = true ∧ ((verifying .demand 1).chan .c1).dir = .verify ∧
      ((verifying .demand 1).chan .c1).mode = .demand ∧ (verifying .demand 1).pins.dreq.get .c1 = true ∧
      (verifying .demand 1).slot.line ≠ .asserted ∧ (verifying .demand 1).refresh.owed = 0 ∧
      (verifying .demand 1).arb.hostWaiting = false) ∧
    (unitReady .c1 false toTop = true ∧
      lookupMap board.map 0xAFFFF .write = .found 2 0x47A31FFFF ∧ (board.stage .c1).opened = none) ∧
    (∀ v, v ∈ [(false, (0xFFF8 : BitVec 16), runAt 0xFFF0 8, false), (false, 0x1F, runAt 0 31, true), (false, 0xFFF, runAt 0xFFE 1, true),
        (false, 0xFFFF, runAt 0xFFFE 1, true), (true, 0xFFF7, runAt 0xFFF8 8, false), (true, 0xFFE0, runAt 0xFFE1 31, true),
        (true, 0x1000, runAt 0x1001 1, true), (true, 0, runAt 1 1, true)] →
      unitReady .c1 false (capturing v.1 false 0x0A v.2.1 (some v.2.2.1)) = true ∧
      lookupMap board.map (0xA0000 + v.2.1.toNat) .write = .found 2 (0x47A310000 + v.2.1.toNat) ∧
      JoinsRun { capture with decrement := v.1 } v.2.2.1 1 (0xA0000 + v.2.1.toNat) 2 (0x47A310000 + v.2.1.toNat) ∧
      (RunFull { capture with decrement := v.1 } (mapTable.toList.getD 2 ⟨0, 0, 0, 0⟩)
        (joinedRun { capture with decrement := v.1 } v.2.2.1 [9] (0xA0000 + v.2.1.toNat) (0x47A310000 + v.2.1.toNat)) ↔
        v.2.2.2 = true)) ∧
    (unitReady .c1 false (capturing false false 0x0A 0 (some (runAt 0xFFF0 8))) = true ∧
      ¬ JoinsRun capture (runAt 0xFFF0 8) 1 0xA0000 2 0x47A310000 ∧
      ¬ JoinsRun { capture with decrement := true } (runAt 0xFFF0 8) 1 0xA0000 2 0x47A310000) ∧
    (∀ stop r, r ∈ [none, some (runAt 0xFFF0 8)] →
      unitReady .c1 false (capturing false stop 0x0B 0 r) = true ∧ lookupMap board.map 0xB0000 .write = .denied ∧
      unitReady .c1 false (capturing false stop 0x0C 0 r) = true ∧ lookupMap board.map 0xC0000 .write = .miss ∧
      workOf (capturing false stop 0x0B 0 r) = .nothing) ∧
    (unitReady .c5 false playing = true ∧ (playing.chan .c5).dir = .fromMemory ∧
      ∃ k ks bs, (playing.stage .c5).chunks = k :: ks ∧ k.data = some bs) ∧
    (unitReady .c1 false { verifying .single 1 with refresh := ⟨0, 1, 0, false, false⟩ } = true ∧
      (verifying .single 1).slot.line ≠ .asserted) :=
  ⟨by decide, by decide, by unfold JoinsRun RunFull; decide, by unfold JoinsRun; decide, by decide,
    ⟨by decide, by decide, _, _, _, rfl, rfl⟩, by decide⟩

/-- A DECREMENT unit stands below the run it joins, and the run closes at the first byte of the host frame. -/
theorem test_decrement_closes_run :
    (after (.unitCycleEnd true 9) (capturing true false 0x0A 0x1000 (some (runAt 0x1001 3)))).order =
      [.write (.run .c1) 0x47A311000 [9, 0, 1, 2]] := by decide
/-- A unit the map denies is dropped; under stop-on-fault its channel is masked and the open run flushed. -/
theorem test_denied_unit :
    (let t := after (.unitCycleEnd true 9) (capturing false true 0x0B 0 (some (runAt 0xFFF0 3)))
     (t.order, (t.chan .c1).faults, (t.chan .c1).firstFault, (t.chan .c1).mask)) =
      ([.write (.run .c1) 0x47A31FFF0 [0, 1, 2]], 0x08, 0xB0000, true) := by decide

theorem terminal_of {c : Chan} {s : State} (h : unitReady c true s = true) : TerminalUnit s c := by
  unfold unitReady at h
  split at h
  · rename_i cyc hc
    simp only [Bool.and_eq_true, decide_eq_true_eq, Bool.not_eq_true', beq_iff_eq] at h
    obtain ⟨⟨⟨⟨⟨⟨⟨⟨h1, h2⟩, h3⟩, h4⟩, h5⟩, h6⟩, h7⟩, h8⟩, h9⟩ := h
    exact ⟨⟨cyc, hc, h1, h2, h3, h4, h5, h6, h7⟩, h8, h9⟩
  · cases h

/-- The terminal-count unit of `playing`'s pass, with what its channel takes up next and where its cursor stands. -/
def lastOf (auto : Bool) (b : Option Block) (p : Passed) (cs : CursorState) : State :=
  let s := inTenure .c5 { Channel.reset with
    mode := .demand, dir := .fromMemory, page := 0x13, curAddr := 0xFFFE, curCount := 0, autoReload := auto, nextBlock := b } board
  s.putStage .c5 { s.stage .c5 with
    chunks := [⟨0, 0x13FFFC, 0x47A300000, 2, some (stagedBytes .c5 false 0x13FFFC [1, 2]), false⟩,
               ⟨1, 0x130000, 0x47A300000, 2, none, true⟩]
    cursor := ⟨0x13, 1, 1, cs, p⟩ }

/-- The terminal-count unit of a BLOCK VERIFY channel, with its request line at a level. -/
def blockEnd (line : Bool) (b : Option Block) : State :=
  let s := inTenure .c1 { capture with mode := .block, dir := .verify, curCount := 0, nextBlock := b } board
  { s with pins := { s.pins with dreq := s.pins.dreq.put .c1 line } }

theorem witness_TerminalCountReloadsOrStops :
    (∀ s, s ∈ [unit32, inTenure .c1 { capture with curAddr := 0xF, curCount := 0 } board,
        inTenure .c1 { capture with curAddr := 0xF, curCount := 0, autoReload := false } board] →
      TerminalUnit s .c1 ∧ (s.chan .c1).dir = .toMemory ∧ (s.chan .c1).mode ≠ .master ∧
      (s.slot.cycle.map Cycle.addr) = some 0xA000F ∧ lookupMap s.map 0xA000F .write = .found 2 0x47A31000F) ∧
    (∀ s, s ∈ [lastOf true none .reload .waitingAhead, lastOf true (some ⟨1, 2, 3⟩) .next .waitingAhead,
        lastOf false (some ⟨1, 2, 3⟩) .next .waitingAhead, lastOf true none .reload .reading, lastOf true none .no .atEnd,
        lastOf false none .no .atEnd] →
      TerminalUnit s .c5 ∧ (s.chan .c5).dir = .fromMemory ∧ (s.chan .c5).mode ≠ .master ∧ workOf s = .nothing ∧
      ∃ k ks bs, (s.stage .c5).chunks = k :: ks ∧ k.data = some bs) ∧
    (∀ s, s ∈ [blockEnd true none, blockEnd true (some ⟨1, 2, 0⟩), blockEnd false none] →
      TerminalUnit s .c1 ∧ (s.chan .c1).dir = .verify ∧ (s.chan .c1).mode = .block ∧ s.slot.line ≠ .asserted ∧
      s.refresh.owed = 0 ∧ s.arb.hostWaiting = false ∧ (s.chan .c1).autoReload = true) ∧
    (unitReady .c1 true (verifying .single 0) = true ∧ (verifying .single 0).arb.masterChan = none ∧
      ((verifying .single 0).chan .c1).mode = .single ∧ ((verifying .single 0).chan .c1).tcOwed ≤ 255 ∧
      workOf (verifying .single 0) = .nothing ∧ ((verifying .single 0).chan .c1).nextBlock = none ∧
      ((verifying .single 0).chan .c1).autoReload = true) ∧
    unitReady .c1 true (inTenure .c1 { capture with
      mode := .single, dir := .verify, curCount := 0, tcOwed := 255, nextBlock := some ⟨0xB, 0, 0xFF⟩ } board) = true ∧
    unitReady .c1 true (inTenure .c1 { capture with mode := .single, dir := .verify, curCount := 0, autoReload := false } board) =
      true := by
  refine ⟨?_, ?_, ?_, by decide⟩ <;> intro s h <;> simp only [List.mem_cons, List.not_mem_nil, or_false] at h
  · rcases h with rfl | rfl | rfl <;> exact ⟨terminal_of (by decide), by decide⟩
  · rcases h with rfl | rfl | rfl | rfl | rfl | rfl <;>
      exact ⟨terminal_of (by decide), by decide, by decide, by decide, _, _, _, rfl, rfl⟩
  · rcases h with rfl | rfl | rfl <;> exact ⟨terminal_of (by decide), by decide⟩

theorem witness_RefreshIsOwedAndPaid :
    (∃ cyc, (refreshing 2 live).slot.cycle = some cyc ∧ cyc.phase = .running ∧ cyc.owner = .refresh ∧ cyc.kind = .refresh ∧
      2 ≤ (refreshing 2 live).refresh.owed) ∧
    ((refreshing 1 live).refresh.owed = 1 ∧ (refreshing 1 live).slot.line ≠ .asserted ∧
      (∀ d, d ∈ (refreshing 1 live).dma.order → ((refreshing 1 live).chan d).state ≠ .ready) ∧
      (refreshing 1 live).arb.hostWaiting = false) ∧
    (State.reset.slot.line = .asserted ∧ setRefreshPeriod { live with settings := ⟨0x0A001001, 0, 9, 0⟩ }.settings = 0) ∧
    (live.slot.line ≠ .asserted ∧ setRefreshPeriod live.settings ≠ 0 ∧ live.refresh.owed < 4 ∧ live.arb.owner = .free) ∧
    ({ busy with refresh := ⟨0, 3, 0, false, false⟩ }.refresh.owed < 4 ∧ busy.arb.owner ≠ .free ∧ busy.slot.line ≠ .asserted) ∧
    ({ busy with refresh := ⟨0, 4, 0, false, false⟩ }.refresh.owed = 4 ∧
      { busy with refresh := ⟨0, 4, 0, true, true⟩ }.refresh.episode = true) :=
  ⟨⟨_, rfl, by decide⟩, by decide, by decide, by decide, by decide, by decide⟩

/-- A tenure of a stop-on-fault channel between two units, the host path waiting at a tenure limit of 5. -/
def betweenUnits : State :=
  let s := inTenure .c1 { capture with mode := .demand, dir := .verify, stopOnFault := true } board
  { s with
    slot := { s.slot with lastAddr := some 0xAFFEF }
    arb := { s.arb with hostWaiting := true, dmaCount := 5 }
    xfer := some (stepXfer midStream 1 [1]), settings := ⟨0x0A0F1001, 5, 9, 0⟩ }

/-- The channel's tenure ends at that boundary, and the host path, which waits at the limit, has the bus. -/
theorem test_check_between_units_turns :
    ((after (.cardCheckEdge true) betweenUnits).arb.owner, ((after (.cardCheckEdge true) betweenUnits).chan .c1).mask) =
      (.hostPath, true) := by decide

theorem witness_CheckEdgeIsLatchedAndCharged :
    State.reset.slot.line = .asserted ∧ (live.slot.line ≠ .asserted ∧ live.arb.owner = .free) ∧
    (∃ cyc, (refreshing 1 live).slot.cycle = some cyc ∧ (refreshing 1 live).slot.line ≠ .asserted ∧
      (refreshing 1 live).arb.owner = .refresh) ∧
    (∃ cyc, (verifying .demand 1).slot.cycle = some cyc ∧ (verifying .demand 1).slot.line ≠ .asserted ∧
      (verifying .demand 1).arb.owner = .dma .c1) ∧
    (∃ cyc x, wordRead.slot.cycle = some cyc ∧ wordRead.xfer = some x ∧ wordRead.slot.line ≠ .asserted ∧
      wordRead.arb.owner = .hostPath ∧ cyc.check = false ∧ cyc.ready = false) ∧
    (master.slot.line ≠ .asserted ∧ master.arb.owner = .master ∧ master.arb.masterChan = some .c6 ∧
      (master.chan .c6).stopOnFault = false) ∧
    (betweenUnits.slot.line ≠ .asserted ∧ betweenUnits.arb.owner = .dma .c1 ∧ betweenUnits.slot.lastAddr = some 0xAFFEF ∧
      (∀ cyc, betweenUnits.slot.cycle = some cyc → cyc.discard = false) ∧ (betweenUnits.chan .c1).state = .active ∧
      (betweenUnits.chan .c1).stopOnFault = true ∧ betweenUnits.refresh.owed = 0 ∧ betweenUnits.arb.hostWaiting = true ∧
      betweenUnits.xfer ≠ none ∧ setTenureLimit betweenUnits.settings = 5 ∧ betweenUnits.arb.dmaCount = 5 ∧
      workOf betweenUnits = .nothing) :=
  ⟨by decide, by decide, ⟨_, rfl, by decide⟩, ⟨_, rfl, by decide⟩, ⟨_, _, rfl, rfl, by decide⟩, by decide,
    by decide, by decide, by decide, fun _ h => by cases h; rfl, by decide⟩

/-! ### Resets, timers and FENCE -/

theorem witness_SlotResetAssertsTheLine :
    (req .slotReset 1 0 0xFF00 0 0).kind = .slotReset ∧ field (req .slotReset 1 0 0xFF00 0 0).addr 0 8 = 0 ∧
    field (req .slotReset 1 0 0xFFFF 0 0).addr 0 8 = 255 ∧ field (req .slotReset 1 0 1 0 0).addr 0 8 = 1 ∧
    ((inTenure .c1 capture board).chan .c1).state = .active ∧ (staged.chan .c1).state = .waiting ∧
    (staged.chan .c1).mode ≠ .master ∧ (staged.chan .c1).dir = .toMemory ∧
    (playing.chan .c5).state = .active ∧ (playing.chan .c5).dir = .fromMemory ∧
    JustTaken (taking (req .slotReset 1 0 1 0 0) playing) (Exec.take (req .slotReset 1 0 1 0 0)) :=
  ⟨rfl, by decide, by decide, by decide, by decide, by decide, by decide, by decide, by decide, by decide, justTaken_taking _ _⟩

theorem witness_ResetTimersReleaseTheLine :
    (∃ p, (pulsing 1 .asserted).slot.pulse = some p ∧ (pulsing 1 .asserted).slot.line = .asserted ∧ (pulsing 1 .asserted).xfer = none ∧
      (pulsing 1 .asserted).irq.poll = none ∧ (pulsing 1 .asserted).irq.pollWaiting = false ∧ p.settleMs ≠ 0) ∧
    (∃ p x, (pulsing 0 .asserted).slot.pulse = some p ∧ (pulsing 0 .asserted).slot.line = .asserted ∧
      (pulsing 0 .asserted).xfer = none ∧ p.settleMs = 0 ∧ (pulsing 0 .asserted).queue.exec = some x ∧
      respondsWith x.request .ok = true) ∧
    (respondsWith (req .slotReset 0 0 1 0 0) .ok = false) ∧
    (∃ p x, (pulsing 5 .settling).slot.pulse = some p ∧ (pulsing 5 .settling).slot.line = .settling ∧
      (pulsing 5 .settling).xfer = none ∧ (pulsing 5 .settling).queue.exec = some x) ∧
    (live.slot.pulse = none ∧ (pulsing 5 .settling).slot.line ≠ .asserted ∧ (pulsing 5 .asserted).slot.line ≠ .settling) := by
  exact ⟨⟨_, rfl, by decide⟩, ⟨_, _, rfl, rfl, rfl, rfl, rfl, by decide⟩, by decide, ⟨_, _, rfl, rfl, rfl, rfl⟩, by decide⟩

theorem witness_PartResetClearsTheTables :
    (flag1 (req .partReset 3 0 0xFF00 0 0) = true ∧ field (req .partReset 3 0 0xFF00 0 0).addr 0 8 = 0) ∧
    flag1 (req .partReset 1 0 0xFF00 0 0) = false ∧
    (flag1 (req .partReset 3 0 0x0001 0 0) = true ∧ field (req .partReset 3 0 0x0001 0 0).addr 0 8 ≠ 0) ∧
    JustTaken (taking (req .partReset 3 0 1 0 0) playing) (Exec.take (req .partReset 3 0 1 0 0)) ∧
    OwnsBus (taking (req .partReset 1 0 0 0 0) playing) .c5 ∧ ¬ OwnsBus (taking (req .partReset 1 0 0 0 0) playing) .c1 :=
  ⟨by decide, by decide, by decide, justTaken_taking _ _, .inl rfl, by unfold OwnsBus; decide⟩

theorem witness_ClockHoldAndAgeCommandsAct :
    (live.arb.owner = .free ∧ busy.arb.owner ≠ .free) ∧
    (lastTick.arb.owner = .master ∧ setMasterHold lastTick.settings ≠ 0 ∧ lastTick.arb.longReported = false ∧
      lastTick.master.owedFault = none) ∧
    (∃ g, (after (.lineFillComplete .error) filling).master.owedFault = some g) ∧ setMasterHold busy.settings = 0 ∧
    (∃ r, setAgeLimit staged.settings ≠ 0 ∧ (staged.stage .c1).opened = some r ∧ r.bytes ≠ [] ∧
      (staged.chan .c1).dir = .toMemory ∧ (staged.chan .c1).mode ≠ .master) ∧
    ((staged.stage .c2).opened = none ∧ setAgeLimit ⟨0x000F1001, 0, 9, 0⟩ = 0) :=
  ⟨by decide, by decide, ⟨_, rfl⟩, by decide, ⟨_, by decide, rfl, by decide, by decide, by decide⟩, by decide⟩

/-- Channel 1 with its open run, and the four writes of which one is decided. -/
def fourStaged : State := { staged with master := fourWrites.master }

theorem witness_FenceCoversAndWaits :
    namesNoChannel (req .fence 1 0 0x10 0 0) ∧ namesNoChannel (req .fence 1 0 0x100 0 0) ∧
    ¬ namesNoChannel (req .fence 1 0 0xEF 0 0) ∧ ¬ namesNoChannel (req .fence 3 0 0x02 0 0) ∧
    JustTaken (taking (req .fence 3 0 0x02 0 0) fourStaged) (Exec.take (req .fence 3 0 0x02 0 0)) ∧
    ((false = true) ↔ flag1 (req .fence 1 0 0xEF 0 0) = true ∨
      ∃ c, named (req .fence 1 0 0xEF 0 0) c = true ∧ (staged.chan c).mode = .master) ∧
    (fourStaged.master.buffer = [⟨0x10FFC, [1, 2], 4, 0x23C000FFC, true⟩] ++ fourStaged.master.buffer.drop 1 ∧
      (∀ e, e ∈ [(⟨0x10FFC, [1, 2], 4, 0x23C000FFC, true⟩ : MasterEntry)] → e.decided = true) ∧
      (∀ e, e ∈ fourStaged.master.buffer.drop 1 → e.decided = false)) ∧
    (stagedCount .c1 staged = 10 ∧ named (req .fence 3 0 0x02 0 0) .c1 = true ∧ stagesToMemory (staged.chan .c1) = true ∧
      closedRun (req .fence 3 0 0x02 0 0) staged .c1 = [runWrite]) ∧
    18 = 0 + 10 + 0 + 0 + 0 + 0 + 0 + (fourStaged.master.buffer.map (fun e => e.bytes.length)).sum ∧
    flag1 (req .fence 3 0 0x02 0 0) = true ∧ staged.master.buffer = [] := by
  refine ⟨by unfold namesNoChannel; decide, by unfold namesNoChannel; decide, by unfold namesNoChannel; decide,
    by unfold namesNoChannel; decide, justTaken_taking _ _, ⟨(nomatch ·), ?_⟩, by decide, by decide, by decide, by decide, by decide⟩
  rintro (h | ⟨c, -, h⟩)
  · exact absurd h (by decide)
  · exact absurd h (all_chans (p := fun c => (staged.chan c).mode ≠ .master) (by decide) c)

/-- The run takes its place, then B, and C with D; 18 bytes are covered. -/
theorem test_fence_places :
    ((after .fence (taking (req .fence 3 0 0x02 0 0) fourStaged)).order.map (fun i => match i with
      | .write _ a bs => (a, bs.length)
      | .read _ => (0, 0))) = [(0x47A310000, 10), (0x23C000FFE, 2), (0x23C001000, 4)] := by decide

/-! ### DMA channels -/

theorem witness_LegacyAddressOfAUnit : Chan.c0 ∈ [Chan.c0, .c1, .c2, .c3] ∧ Chan.c7 ∈ [Chan.c5, .c6, .c7] := by decide

theorem witness_ChannelProgramLoadsTheRecord :
    Chan.ofNum (req .channelProgram 1 4 0x00100000 0 0).sub.toNat = none ∧
    ¬ modeWordListed 0x0010000C ∧ ¬ modeWordListed 0x00100500 ∧ ¬ modeWordListed 0x01100000 ∧
    ¬ blockListed (req .channelProgram 1 0 0x00100000 0x01000000 0) ∧ ¬ blockListed (req .channelProgram 1 0 0x00100000 0 0x10000) ∧
    (Chan.ofNum (req .channelProgram 1 7 0x010004F8 0 0).sub.toNat = some .c7 ∧ modeWordListed 0x010004F8 ∧ modeWordListed 0x00100000 ∧
      blockListed (req .channelProgram 1 7 0x010004F8 0x00FFFFFF 0xFFFF)) ∧
    ((staged.chan .c1).state ≠ .idle ∧ (staged.chan .c1).state ≠ .finished) ∧ (staged.chan .c7).state = .idle := by
  refine ⟨by decide, ?_, ?_, ?_, ?_, ?_, ⟨by decide, ?_, ?_, ?_⟩, by decide, by decide⟩ <;>
    first
      | (unfold modeWordListed; decide)
      | (unfold blockListed; decide)

theorem witness_ChannelNextHoldsABlock :
    Chan.ofNum (req .channelNext 1 8 0 0 0).sub.toNat = none ∧
    (Chan.ofNum (req .channelNext 1 6 0 0 0).sub.toNat = some .c6 ∧ (master.chan .c6).mode = .master) ∧
    ((playback.chan .c1).mode ≠ .master ∧ (playback.chan .c1).nextBlock ≠ none) ∧
    ((staged.chan .c1).mode ≠ .master ∧ (staged.chan .c1).nextBlock = none ∧ (staged.chan .c1).dir ≠ .fromMemory ∧
      blockListed (req .channelNext 1 1 0 0x00FFFFFF 0xFFFF)) ∧
    ((playing.chan .c5).dir = .fromMemory ∧ (playing.chan .c5).nextBlock = none ∧ (playing.chan .c5).state.placeable = false ∧
      (playing.stage .c5).cursor.passed = .no ∧ (playing.stage .c5).cursor.state = .atEnd) := by
  refine ⟨by decide, by decide, by decide, ⟨by decide, by decide, by decide, by unfold blockListed; decide⟩, by decide⟩

/-- A playback channel whose cursor has passed into its reload, with 64 bytes on each side of the pass point. -/
def reloaded : State :=
  let s := withChan .c1 { capture with mode := .single, dir := .fromMemory, limit := 128, curAddr := 0xFC0, curCount := 0x3F } busy
  s.putStage .c1 { s.stage .c1 with
    chunks := [⟨4, 0xA0FC0, 0x47A310FC0, 64, some (stagedBytes .c1 false 0xA0FC0 (bytesFrom 0 64)), false⟩,
               ⟨5, 0xA0000, 0x47A310000, 64, some (stagedBytes .c1 false 0xA0000 (bytesFrom 0 64)), true⟩]
    cursor := ⟨0x0A, 0x40, 0xFBF, .reading, .reload⟩, readId := 6 }

/-- The late next block of the worked example of 06: the 64 bytes past the pass point are discarded, and the cursor takes the block. -/
theorem witness_ChannelNextHoldsABlock_reload :
    (reloaded.chan .c1).nextBlock = none ∧ (reloaded.chan .c1).dir = .fromMemory ∧ (reloaded.stage .c1).cursor.passed = .reload ∧
    stagedCount .c1 (after .channelNext (taking (req .channelNext 1 1 0 0x0B0000 0x0FFF) reloaded)) = 64 ∧
    ((after .channelNext (taking (req .channelNext 1 1 0 0x0B0000 0x0FFF) reloaded)).stage .c1).cursor =
      ⟨0x0B, 0, 0x0FFF, .reading, .next⟩ := by decide

theorem witness_ChannelMaskSetStopsChannels :
    namesNoChannel (req .channelMask 3 0 0x110 0 0) ∧ ¬ namesNoChannel (req .channelMask 3 0 0xEF 0 0) ∧
    flag1 (req .channelMask 3 0 0xEF 0 0) = true ∧
    JustTaken (taking (req .channelMask 3 0 0xEF 0 0) playing) (Exec.take (req .channelMask 3 0 0xEF 0 0)) ∧
    (master.arb.masterChan = some .c6 ∧ (master.chan .c6).state = .mastered) ∧
    (let s := withChan .c1 capture busy
     (s.chan .c1).state.placeable = true ∧ s.arb.owner ≠ .dma .c1 ∧ s.arb.masterChan ≠ some .c1 ∧
      stagesToMemory (s.chan .c1) = true ∧ stagedCount .c1 s = 0) ∧
    playing.arb.masterChan = none ∧ (playing.chan .c1).state.masked = true ∧ (playing.chan .c5).state = .active ∧
    (let s := { staged with arb := { board.arb with owner := .refresh } }
     s.arb.masterChan = none ∧ (s.chan .c1).state.placeable = true ∧ s.arb.owner ≠ .dma .c1 ∧ stagesToMemory (s.chan .c1) = true ∧
      stagedCount .c1 s ≠ 0 ∧ stagesToMemory ((s.putChan .c1 { capture with dir := .fromMemory }).chan .c1) = false) := by
  refine ⟨by unfold namesNoChannel; decide, by unfold namesNoChannel; decide, by decide, justTaken_taking _ _, by decide, by decide,
    by decide, by decide, by decide, by decide⟩

theorem witness_ChannelMaskClearStartsChannels :
    namesNoChannel (req .channelMask 1 0 0x80000000 0 0) ∧ ¬ namesNoChannel (req .channelMask 1 0 0xEF 0 0) ∧
    flag1 (req .channelMask 1 0 0xEF 0 0) = false ∧ busy.arb.owner ≠ .free ∧
    JustTaken (taking (req .channelMask 1 0 0xEF 0 0) busy) (Exec.take (req .channelMask 1 0 0xEF 0 0)) ∧
    (∀ c, (busy.chan c).state = .idle) ∧ (∀ c d, (busy.chan c).state ≠ .stopping d) ∧
    (let s := withChan .c1 { capture with state := .finished, mask := true } busy
     (s.chan .c1).state = .finished ∧ (s.chan .c1).nextBlock = none) ∧
    (let s := withChan .c1 { capture with state := .finished, mask := true, nextBlock := some ⟨1, 2, 3⟩ } busy
     (s.chan .c1).state = .finished ∧ (s.chan .c1).nextBlock = some ⟨1, 2, 3⟩) ∧
    (let s := withChan .c1 { capture with state := .stopping .idle, mask := true } busy
     named (req .channelMask 1 0 0xEF 0 0) .c1 = true ∧ (s.chan .c1).state = .stopping .idle) ∧
    MaskAgrees busy ∧
    (∀ one, one = capture ∨ one = { capture with mask := true, state := .finished } →
      let s := { clearing one with order := [] }
      (∃ e m w, s.queue.exec = some e ∧ e.work = .maskClear m w ∧ w.get .c2 = true ∧ m.get .c2 = true) ∧
      (s.chan .c2).state = .stopping .idle ∧ s.arb.owner ≠ .dma .c2 ∧ s.arb.masterChan ≠ some .c2 ∧ stagedCount .c2 s = 0 ∧
      (∀ b, b ≠ .c2 → b.num ≠ 1 → (s.chan b).mask = true) ∧ (s.chan .c1).mask = one.mask) := by
  refine ⟨by unfold namesNoChannel; decide, by unfold namesNoChannel; decide, by decide, by decide, justTaken_taking _ _,
    all_chans (by decide), fun c d => ?_, by decide, by decide, by decide, all_chans (by decide), fun one h => ?_⟩
  rotate_left
  · obtain rfl | rfl := h <;>
      exact ⟨⟨_, _, _, rfl, rfl, by decide, by decide⟩, by decide, by decide, by decide, by decide, all_chans (by decide), by decide⟩
  rw [all_chans (p := fun c => (busy.chan c).state = .idle) (by decide) c]
  simp

theorem witness_ChannelRequestAndStatus :
    Chan.ofNum (req .channelRequest 3 4 0 0 0).sub.toNat = none ∧
    (Chan.ofNum (req .channelRequest 3 6 0 0 0).sub.toNat = some .c6 ∧ (master.chan .c6).mode = .master) ∧
    (Chan.ofNum (req .channelRequest 3 1 0 0 0).sub.toNat = some .c1 ∧ flag1 (req .channelRequest 3 1 0 0 0) = true ∧
      flag1 (req .channelRequest 1 1 0 0 0) = false ∧ (staged.chan .c1).mode ≠ .master ∧ staged.arb.owner ≠ .free ∧
      (staged.chan .c1).state.placeable = true) ∧
    ((staged.chan .c2).state.placeable = false) ∧
    Chan.ofNum (req .channelStatus 3 7 0 0 0).sub.toNat = some .c7 ∧
    takenRecord (taking (req .channelRequest 3 1 0 0 0) staged) = some (req .channelRequest 3 1 0 0 0) := by decide

theorem witness_RequestLinesPlaceChannels :
    (master.pins.dreq.get .c6 = true ∧ master.pins.dreq.get .c1 = false) ∧
    (staged.pins.dreq.get .c1 = false ∧ staged.arb.owner ≠ .free ∧ (staged.chan .c1).state.placeable = true ∧
      staged.slot.line ≠ .asserted ∧ (staged.chan .c2).state.placeable = false) ∧
    (let s := after (.dmaRequestRise .c1) staged
     s.pins.dreq.get .c1 = true ∧ s.arb.owner ≠ .free ∧ s.arb.masterChan ≠ some .c1 ∧ (s.chan .c1).state.placeable = true ∧
      (s.chan .c1).soft = false ∧ (s.chan .c1).blockRun = false) ∧
    (filling.pins.dreq.get .c6 = true ∧ filling.arb.owner = .master ∧ filling.arb.masterChan = some .c6 ∧
      (filling.chan .c6).state = .mastered ∧ (filling.chan .c6).mode = .master ∧ filling.master.stretched ≠ none) := by decide

/-! ### Memory map and host mover -/

theorem witness_LookupIsDecidedByTheLowestEntry :
    (∀ e, e ∈ mapTable.toList → e.valid = true → mapContains e 0x9FFFF = false) ∧
    (mapTable.toList[2]? = some ⟨0x00A00005, 15, 0x0047A310, 0⟩ ∧ mapContains ⟨0x00A00005, 15, 0x0047A310, 0⟩ 0xA0000 = true ∧
      mapContains ⟨0x00A00005, 15, 0x0047A310, 0⟩ 0xAFFFF = true ∧ mapAccess ⟨0x00A00005, 15, 0x0047A310, 0⟩ = 2 ∧
      (mapTable.toList.take 2).all (fun e => !e.valid) = true) ∧
    (mapTable.toList[3]? = some ⟨0x00B00001, 0, 0x00051C07, 0⟩ ∧ mapContains ⟨0x00B00001, 0, 0x00051C07, 0⟩ 0xB0FFF = true ∧
      mapAccess ⟨0x00B00001, 0, 0x00051C07, 0⟩ = 0) ∧
    (lookupMap mapTable 0xB0FFF .write = .denied ∧ lookupMap mapTable 0xB0FFF .read = .found 3 0x51C07FFF ∧
      lookupMap mapTable 0xB1000 .read = .miss ∧ 0xB0000 / 4096 = 0xB0FFF / 4096) := by decide

theorem witness_IssuedWriteReachesHostMemory :
    ([OrderItem.write .record 0x1000 [7, 8]] = .write .record 0x1000 [7, 8] :: [] ∧ memWf live.host.mem = true) ∧
    (fencing.order = [runWrite] ∧ (fencing.chan .c1).dir = .toMemory) ∧
    (fourWrites.order = [.write (.master 1) 0x23C000FFC [1, 2]] ∧ fourWrites.master.stretched = none) ∧
    (∀ i, i ∈ live.order → i.isRead = true) := by decide

theorem witness_PrefetchReadIsFormed :
    ((playback.chan .c1).dir = .fromMemory ∧ (playback.chan .c1).mode ≠ .master ∧
      (playback.chan .c1).state ∈ [.waiting, .ready, .active, .stalled] ∧
      0xB0000 = legacyAddr .c1 (playback.stage .c1).cursor.page (playback.stage .c1).cursor.addr ∧
      32 + stagedCount .c1 playback + outstandingCount .c1 playback ≤ (playback.chan .c1).limit ∧
      (playback.stage .c1).cursor.state = .reading ∧ lookupMap playback.map 0xB0000 .read = .found 3 0x51C07000 ∧
      32 = min (min 32 128) (min (min (4096 - 0xB0000 % 4096) ((0xFFF + 1) * 1)) ((0xB0 + 1) * 4096 - 0xB0000))) ∧
    ((playing.chan .c5).dir = .fromMemory ∧ (playing.chan .c5).state = .active ∧ (playing.stage .c5).cursor.state ≠ .reading ∧
      1 + stagedCount .c5 playing + outstandingCount .c5 playing ≤ (playing.chan .c5).limit) ∧
    (lookupMap live.map 0xB0000 .read = .miss ∧ (playback.chan .c1).stopOnFault = false ∧ 32 % Chan.unit .c1 = 0) := by decide

theorem witness_PrefetchReadCompletes :
    (∀ k, k ∈ (playback.stage .c1).chunks → k.id ≠ 7) ∧
    (∃ pre k, ((after (.prefetchReadForm .c1) playback).stage .c1).chunks = pre ++ k :: [] ∧ k.id = 7 ∧ k.data = none ∧
      k.len % Chan.unit .c1 = 0 ∧ (∀ k', k' ∈ pre ++ [] → k'.id ≠ 7) ∧
      OrderItem.read (.prefetch .c1 7) ∉ (after (.prefetchReadForm .c1) playback).order ∧ (bytesFrom 0 32).length = k.len ∧
      ((after (.prefetchReadForm .c1) playback).chan .c1).stopOnFault = false) :=
  ⟨by decide, _, _, rfl, by decide⟩

/-! ### Bus-master cards -/

/-- A fill outstanding for a card that no longer waits for it. -/
def awaited : State := { filling with master := { filling.master with stretched := none } }

theorem witness_MasterWriteIsPostedOrHeld :
    (live.arb.owner ≠ .master ∧ filling.master.stretched ≠ none) ∧
    (master.arb.owner = .master ∧ master.master.stretched = none ∧ lookupMap master.map 0x14000 .write = .miss ∧
      lookupMap master.map 0xB0000 .write = .denied ∧ lookupMap master.map 0x13FFF .write = .found 4 0x23C003FFF ∧
      master.master.buffer = [] ∧ master.master.readLine = none ∧ master.master.fill = none) ∧
    16 ≤ (List.replicate 16 (⟨0x10FFC, [1, 2], 4, 0x23C000FFC, true⟩ : MasterEntry)).length ∧
    (∃ e, e ∈ fourWrites.master.buffer ∧ e.decided = true ∧ fourWrites.master.buffer.length < 16) ∧
    (∃ rl, (after (.lineFillComplete (.data (bytesFrom 0 32))) filling).master.readLine = some rl ∧ 0x10FFF / 32 * 32 = rl.addr ∧
      0x11000 / 32 * 32 ≠ rl.addr ∧ rl.bytes.length = 32 ∧
      (after (.lineFillComplete (.data (bytesFrom 0 32))) filling).master.buffer = [] ∧
      (after (.lineFillComplete (.data (bytesFrom 0 32))) filling).master.stretched = none) ∧
    (∃ f, awaited.master.fill = some f ∧ awaited.arb.owner = .master ∧ awaited.master.stretched = none ∧ awaited.master.buffer = [] ∧
      0x10FFF / 32 * 32 = f.addr ∧ 0x11000 / 32 * 32 ≠ f.addr ∧ f.ignored = false) :=
  ⟨by decide, by decide, by decide, ⟨_, .head _, by decide⟩, ⟨_, rfl, by decide⟩, _, rfl, by decide⟩

/-- The four writes, with a valid read line that the read to come misses by one place. -/
def fourMissed : State :=
  { fourWrites with master := { fourWrites.master with readLine := some ⟨0x10FC0, 4, 0x23C000FC0, bytesFrom 0 32⟩ } }

theorem witness_MasterReadIsAnsweredOrFills :
    (2 = (if true ∧ (0x10FFE : BitVec 24).toNat % 2 = 0 then 2 else 1)) ∧
    (1 = (if true ∧ (0x10FFF : BitVec 24).toNat % 2 = 0 then 2 else 1)) ∧
    (live.arb.owner ≠ .master ∧ filling.master.stretched ≠ none) ∧
    (master.arb.owner = .master ∧ master.master.stretched = none ∧ lookupMap master.map 0x14000 .read = .miss ∧
      lookupMap master.map 0x13FFE .read = .found 4 0x23C003FFE ∧ master.master.readLine = none ∧ master.master.fill = none ∧
      master.master.buffer = [] ∧ master.order = []) ∧
    lookupMap ((Vector.replicate 32 Entry.zero).set 0 ⟨0x00100003, 0, 0x00051C07, 0⟩) 0x10FFF .read = .denied ∧
    (∃ rl, (after (.lineFillComplete (.data (bytesFrom 0 32))) filling).master.readLine = some rl ∧ rl.addr ≤ 0x10FFE ∧
      0x10FFE + 2 ≤ rl.addr + 32) ∧
    (∃ f, { filling with master := { filling.master with stretched := none } }.master.fill = some f ∧
      filling.master.readLine = none ∧ filling.master.buffer = []) ∧
    (fourMissed.arb.owner = .master ∧ fourMissed.master.stretched = none ∧ fourMissed.master.fill = none ∧
      (∃ rl, fourMissed.master.readLine = some rl ∧ ¬ (rl.addr ≤ 0x10FFF ∧ 0x10FFF + 1 ≤ rl.addr + 32)) ∧
      fourMissed.master.buffer = [⟨0x10FFC, [1, 2], 4, 0x23C000FFC, true⟩] ++ fourMissed.master.buffer.drop 1 ∧
      (∀ e, e ∈ fourMissed.master.buffer.drop 1 → e.decided = false)) :=
  ⟨by decide, by decide, by decide, by decide, by decide, ⟨_, rfl, by decide⟩, ⟨_, rfl, by decide⟩, by decide, by decide, by decide,
    ⟨_, rfl, by decide⟩, by decide, by decide⟩

theorem witness_MasterPortMovesOn :
    (live.master.stretched = none ∧ 16 ≤ (List.replicate 16 (⟨0, [1], 0, 0, true⟩ : MasterEntry)).length) ∧
    (∃ e, heldWrite.master.stretched = some ⟨.write [9], 0x13FFF, 4, 0x23C003FFF, ⟨16, 15⟩⟩ ∧ heldWrite.master.buffer.length < 16 ∧
      e ∈ heldWrite.master.buffer ∧ e.decided = true) ∧
    (live.master.buffer = [] ∧ ∃ e, e ∈ fourWrites.master.buffer ∧ e.decided = true) ∧
    (∃ e es, fourWrites.master.buffer.drop 1 = e :: es ∧
      ∀ x, x ∈ fourWrites.master.buffer.drop 1 → x.decided = false ∧ x.bytes ≠ []) ∧
    (∃ f, filling.master.fill = some f ∧ OrderItem.read .fill ∉ filling.order ∧ f.ignored = false ∧ (bytesFrom 0 32).length = 32 ∧
      filling.master.stretched = some ⟨.read 2 false, 0x10FFE, 4, 0x23C000FFE, ⟨16, 0⟩⟩ ∧ 0x10FFE / 32 * 32 = f.addr ∧
      0x10FFE + 2 ≤ f.addr + 32) ∧
    (∃ f, awaiting.master.fill = some f ∧ f.ignored = true ∧ awaiting.order = [] ∧
      awaiting.master.stretched = some ⟨.read 2 true, 0x10FFE, 4, 0x23C000FFE, ⟨16, 0⟩⟩ ∧
      lookupMap awaiting.map 0x10FFE .read = .found 4 0x23C000FFE ∧
      lookupMap awaitingUnmapped.map 0x10FFE .read ≠ .found 4 0x23C000FFE) := by
  refine ⟨by decide, ⟨_, rfl, by decide, .head _, rfl⟩, ⟨by decide, _, .head _, rfl⟩, ⟨_, _, rfl, by decide⟩, ⟨_, rfl, by decide⟩,
    ⟨_, rfl, by decide⟩⟩

/-! ### Interrupt lines -/

theorem witness_LineSetAndMaskWriteLines :
    (live.irq.poll = none ∧ live.irq.pollWaiting = false) ∧
    (Line.ofNum (req .lineSet 1 8 0 0 0).sub.toNat = none ∧ Line.ofNum (req .lineSet 1 13 0 0 0).sub.toNat = none ∧
      2 ≤ field (0x2 : Word) 0 2 ∧ (field (0x9 : Word) 0 2 = 1 ∧ (0x9 : Word).getLsbD 3 = true) ∧
      (0x00100000 : Word).getLsbD 20 = true ∧ 2 ^ 24 ≤ (0x01000000 : Word).toNat) ∧
    (Line.ofNum (req .lineSet 1 15 0x00EF000C 0 0).sub.toNat = some .l15 ∧ field (0x00EF000C : Word) 0 2 = (if false then 1 else 0) ∧
      (0x00EF000C : Word).getLsbD 20 = false ∧ (0x00EF000C : Word).toNat < 2 ^ 24) ∧
    (Line.ofNum (req .lineSet 1 3 0x00EF0005 0 0).sub.toNat = some .l3 ∧ field (0x00EF0005 : Word) 0 2 = (if true then 1 else 0) ∧
      (0x00EF0005 : Word).getLsbD 3 = false) ∧
    (∃ n, n ∈ [0, 1, 2, 8, 13, 16, 17, 18, 19, 20, 21, 22, 23, 24, 25, 26, 27, 28, 29, 30, 31] ∧
      (0x2000 : Word).getLsbD n = true) ∧
    (∀ n, n ∈ [0, 1, 2, 8, 13, 16, 17, 18, 19, 20, 21, 22, 23, 24, 25, 26, 27, 28, 29, 30, 31] → (0xDEF8 : Word).getLsbD n = false) ∧
    flag1 (req .lineMask 3 0 0xDEF8 0 0) = true ∧ flag1 (req .lineMask 1 0 0xDEF8 0 0) = false :=
  ⟨by decide, by decide, by decide, by decide, ⟨13, by decide⟩, by decide, by decide, by decide⟩

theorem witness_LineEndTakesOutOfService :
    (flag1 (req .lineEnd 3 8 0 0 0) = true ∧ Line.ofNum (req .lineEnd 3 8 0 0 0).sub.toNat = none) ∧
    (Line.ofNum (req .lineEnd 3 6 0 0 0).sub.toNat = some .l6 ∧ (inService.lineRec .l6).inService = false) ∧
    (flag1 (req .lineEnd 1 0 0 0 0) = false ∧ ∀ l, (live.lineRec l).inService = false) ∧
    (flag1 (req .lineEnd 7 5 0 0 0) = true ∧ flag2 (req .lineEnd 7 5 0 0 0) = true ∧
      Line.ofNum (req .lineEnd 7 5 0 0 0).sub.toNat = some .l5 ∧ (inService.lineRec .l5).inService = true) ∧
    (flag1 (req .lineEnd 1 0 0 0 0) = false ∧ flag2 (req .lineEnd 1 0 0 0 0) = false ∧ HighestInService inService .l10) ∧
    inService.irq.poll = none ∧ inService.irq.pollWaiting = false :=
  ⟨by decide, by decide, ⟨by decide, all_lines (by decide)⟩, by decide,
    ⟨by decide, by decide, by decide, all_lines (by decide)⟩, by decide, by decide⟩

/-- Whether a line may be delivered, as a truth value. -/
def mayB (s : State) (l : Line) : Bool :=
  !(s.lineRec l).mask && (s.lineRec l).pending && !(s.lineRec l).inService &&
    (!setNested s.settings || Line.ring.all (fun m => !(s.lineRec m).inService || decide (rank (setTop s.settings) l < rank (setTop s.settings) m)))

theorem may_of {s : State} {l : Line} (h : mayB s l = true) : MayDeliver s l := by
  simp only [mayB, Bool.and_eq_true, Bool.or_eq_true, Bool.not_eq_true', List.all_eq_true, decide_eq_true_eq] at h
  obtain ⟨⟨⟨h1, h2⟩, h3⟩, h4⟩ := h
  refine ⟨h1, h2, h3, fun hn m hm => ?_⟩
  rcases h4 with h4 | h4
  · rw [hn] at h4; cases h4
  · rcases h4 m (by cases m <;> decide) with h5 | h5
    · rw [hm] at h5; cases h5
    · exact h5

theorem not_may {s : State} {l : Line} (h : (s.lineRec l).mask = true ∨ (s.lineRec l).pending = false) : ¬ MayDeliver s l := by
  rintro ⟨h1, h2, -⟩
  rcases h with h | h <;> simp_all

/-- Line 14, LEVEL, pending with an empty drain set, and the same with line 5's drain to make. -/
def pendingLine (d : PerChan Bool) : State :=
  staged.putLine .l14 { LineRec.reset with level := true, mask := false, pending := true, drain := d }

theorem witness_LinePollSelectsAndAnswers :
    (∀ r s, JustTaken (taking r s) (Exec.take r)) ∧
    (let s := after (.interruptLineRise .l5) lines
     s.irq.poll = none ∧ s.irq.pollWaiting = false ∧
      ∃ d, s.irq.delivery = some d ∧ MayDeliver s d.line ∧ d.waits.complete = d.posting) ∧
    (live.irq.delivery = none ∧ ∀ l, ¬ MayDeliver live l) ∧
    (let s := pendingLine (PerChan.const false)
     s.irq.delivery = none ∧ MayDeliver s .l14 ∧ (∀ m, MayDeliver s m → rank (setTop s.settings) .l14 ≤ rank (setTop s.settings) m) ∧
      ∀ c, (s.lineRec .l14).drain.get c = true → (s.chan c).mode ≠ .master ∧ (stagesToMemory (s.chan c) = true → stagedCount c s = 0)) ∧
    (let s := pendingLine (PerChan.const true)
     MayDeliver s .l14 ∧ (s.lineRec .l14).drain.get .c1 = true ∧ stagesToMemory (s.chan .c1) = true ∧ stagedCount .c1 s ≠ 0) := by
  refine ⟨justTaken_taking, ⟨by decide, by decide, _, rfl, may_of (by decide), by decide⟩, ⟨by decide, fun l => not_may ?_⟩,
    ⟨by decide, may_of (by decide), fun m hm => ?_, all_chans (by decide)⟩, may_of (by decide), by decide, by decide, by decide⟩
  · cases l <;> decide
  · cases m <;> first | exact Nat.le_refl _ | exact absurd hm (not_may (by decide))

theorem witness_InterruptLinesAreCaptured :
    ({ State.reset with pins := { State.reset.pins with irq := State.reset.pins.irq.put .l5 true } }.pins.irq.get .l5 = true ∧
      State.reset.slot.line = .asserted ∧ State.reset.pins.irq.get .l15 = false) ∧
    (lines.slot.line ≠ .asserted ∧ lines.irq.poll = none ∧ lines.irq.pollWaiting = false ∧ lines.pins.irq.get .l5 = false ∧
      (after (.interruptLineRise .l5) lines).pins.irq.get .l5 = true) ∧
    (lines.irq.delivery = none ∧ MayDeliver (after (.interruptLineRise .l5) lines) .l5 ∧ ∀ m, m ≠ .l5 → ¬ MayDeliver lines m) := by
  refine ⟨by decide, by decide, by decide, may_of (by decide), fun m _ => not_may ?_⟩
  cases m <;> decide

/-! ### Streams -/

theorem witness_StreamsAreCheckedAndTaken :
    (¬ streamCheck (req .streamIn 1 2 0x300 1 4) ∧ ¬ streamCheck (req .streamIn 1 1 0x10000 1 4) ∧
      ¬ streamCheck (req .streamOut 1 1 0x300 0 4) ∧ ¬ streamCheck (req .streamOut 1 1 0x300 0x1000001 4) ∧
      ¬ streamCheck (req .streamOut 1 1 0x300 1 64)) ∧
    (streamCheck (req .streamIn 1 0 0xFFFF 16777216 127) ∧ streamCheck (req .streamOut 1 1 0x300 1 63) ∧
      State.reset.slot.held = true ∧ board.slot.held = false ∧ ∀ e, e ∈ board.windows.toList → ¬ windowHolds e .port 0xFFFF) ∧
    (Decides board 2 ⟨0x51, 0x300, 0x31F, 0⟩ .port 0x31F ∧ winLimit ⟨0x51, 0x300, 0x31F, 0⟩ < 0x31F + 1) ∧
    (Decides board 4 ⟨0xF00005, 0x201, 0x201, 0⟩ .port 0x201 ∧ 0x201 + 0 ≤ winLimit ⟨0xF00005, 0x201, 0x201, 0⟩ ∧
      winAction ⟨0xF00005, 0x201, 0x201, 0⟩ = 1) ∧
    (Decides board 2 ⟨0x51, 0x300, 0x31F, 0⟩ .port 0x31E ∧ 0x31E + 1 ≤ winLimit ⟨0x51, 0x300, 0x31F, 0⟩ ∧
      winAction ⟨0x51, 0x300, 0x31F, 0⟩ = 0) ∧
    (field (0xFF7F : Word) 0 8 = 127 ∧ (field (63 : Word) 0 8 < 64 ∧ (board.segment 63).valid = false) ∧
      (field (4 : Word) 0 8 < 64 ∧ (board.segment 4).valid = true ∧ (board.segment 5).valid = true ∧ segLength (board.segment 5) = 1)) ∧
    (64 = min (min 64 (segLength (board.segment 4))) (min (4096 - segHost (board.segment 4) % 4096) (req .streamOut 1 1 0x300 1000 4).value.toNat) ∧
      pieceBytes board.order + 64 ≤ 512 ∧ board.order = []) := by
  refine ⟨by unfold streamCheck; decide, ⟨by unfold streamCheck; decide, by unfold streamCheck; decide, by decide, by decide,
    none_holds (by decide)⟩, ⟨decides_of rfl (by decide) (by decide), by decide⟩,
    ⟨decides_of rfl (by decide) (by decide), by decide, by decide⟩, ⟨decides_of rfl (by decide) (by decide), by decide, by decide⟩,
    by decide, by decide⟩

/-- The first WORD step of a STREAM IN on the bus, and its second byte cycle, the word cycle not sensed. -/
def inStep : State := after .streamStep (after .streamIn (taking (req .streamIn 0 1 0x300 1000 4) board))
def inHalf : State := after (.hostCycleEnd false true 0x11) inStep

/-- A step of a stream on the bus with the fault policy, the abort mark and the walk end given. -/
def stepWith (report aborted : Bool) (w : Option (WalkEnd × Nat)) (s : State) : State :=
  { s with
    xfer := s.xfer.map (fun x => { x with report := report, aborted := aborted })
    stream := { s.stream with active := s.stream.active.map (fun st => { st with report := report, walkEnd := w }) } }

/-- What the end of a step starts from, as a truth value. -/
def stepReady (s : State) : Bool :=
  match s.slot.cycle, s.xfer, s.stream.active, s.queue.exec with
  | some cyc, some x, some _, some e =>
    cyc.owner = .hostPath && (cyc.kind = .byte || cyc.kind = .word) && s.arb.owner = .hostPath && !s.arb.hostWaiting && x.forStream &&
      e.phase = .active
  | _, _, _, _ => false

/-- The ends of a cycle in the three ways, each with the transfer it leaves. -/
theorem endsCycle_ready (cyc : Cycle) (x : Xfer) (data : BusWord) (h : cyc.phase = .running) (hs : cyc.sense = none) :
    EndsCycle (.hostCycleEnd false true data) cyc x 1 (cyc.ready || cyc.check) [data.extractLsb' 0 8, data.extractLsb' 8 8] x :=
  .inl ⟨false, data, rfl, h, hs, by simp, rfl, rfl, rfl⟩

theorem endsCycle_release (cyc : Cycle) (x : Xfer) (data : BusWord) (h : cyc.phase = .extended) (hk : cyc.kind = .byte) :
    EndsCycle (.readyRelease data) cyc x 1 (cyc.ready || cyc.check) [data.extractLsb' 0 8, data.extractLsb' 8 8] x :=
  .inr (.inl ⟨data, rfl, h, by simp [hk], rfl, rfl, rfl⟩)

theorem endsCycle_limit (cyc : Cycle) (x : Xfer) (h : cyc.phase = .extended) (hk : cyc.kind = .byte) :
    EndsCycle .readyLimitExpiry cyc x 1 true [0xFF, 0xFF] { x with
      stopped := x.stopped || !x.report
      firstFault := match x.firstFault with
        | some k => some k
        | none => some .ready } := .inr (.inr ⟨rfl, h, by simp [hk], rfl, rfl, rfl⟩)

/-- The second byte of the STREAM IN step: the two bytes enter an open piece at the segment's first places. -/
theorem test_streamIn_step_counts :
    (after (.hostCycleEnd false true 0x22) inHalf).stream.active.map (fun st => (st.moved, st.piece, st.lastSeg, st.used)) =
      some (2, some ⟨0x100000F00, [0x11, 0x22], 0⟩, 4, 2) := by decide

/-- The state a step's end is counted in, the record and order it gives, for a STREAM IN, a STREAM OUT, and a step that moved nothing. -/
theorem witness_StepCounted :
    (∃ st x, inHalf.stream.active = some st ∧ inHalf.xfer = some x ∧
      StepCounted inHalf st { x with left := 0, moved := [0x11, 0x22] }
        { st with moved := 2, step := [], lastSeg := 4, used := 2, piece := some ⟨0x100000F00, [0x11, 0x22], 0⟩ } []) ∧
    StepCounted stepping midStream { stepXfer midStream 1 [1] with left := 0, moved := [1] }
      { midStream with moved := 2, used := 2, chunks := [⟨0, 2, 63, 4, 2, some (bytesFrom 2 62)⟩] } [] ∧
    StepCounted stepping midStream { stepXfer midStream 1 [1] with stopped := true, firstFault := some .ready }
      { midStream with firstFault := some .ready } [] :=
  ⟨⟨_, _, rfl, rfl, .inr (.inl ⟨⟨0x100000F01, 4, 1, false, 0⟩, by decide, by decide, by decide, by decide⟩)⟩,
    .inr (.inr ⟨_, _, _, rfl, rfl, rfl, by decide, by decide, rfl, by decide⟩), .inl ⟨rfl, rfl, by decide⟩⟩

/-- A step ends by ready, by its release and by the ready limit, under HALT and REPORT, aborted, at each kind of walk end, and going on. -/
theorem witness_StreamStepAsksForTheBus :
    (∀ s, s ∈ [inHalf, extended inHalf, stepping, extended stepping, stepWith true false none (extended stepping),
        stepWith false true none stepping, stepWith true false (some (.total, 2)) stepping,
        stepWith true false (some (.atEnd, 2)) stepping, stepWith true false (some (.invalid, 2)) stepping,
        stepWith true false (some (.failed, 2)) stepping] →
      stepReady s = true ∧ s.slot.cycle.map (fun c => (c.kind, c.sense)) = some (.byte, none) ∧ s.xfer.map Xfer.left = some 1) ∧
    (∃ st x, streamingIn.stream.active = some st ∧ streamingIn.queue.exec = some x ∧ x.phase = .waiting ∧
      streamingIn.arb.owner ≠ .hostPath ∧ streamingIn.arb.owner ≠ .free ∧ streamingIn.xfer = none ∧ st.isIn = true ∧ st.step ≠ [] ∧
      st.step.length + heldBytes st + pieceBytes streamingIn.order ≤ 512) ∧
    (∃ st, streamingIn.stream.active = some st ∧
      512 < st.step.length + heldBytes st + pieceBytes [.write .piece 0 (List.replicate 511 0)]) ∧
    (∃ x, streaming.stream.active = some midStream ∧ streaming.queue.exec = some x ∧ x.phase = .active ∧
      streaming.arb.owner ≠ .hostPath ∧ streaming.arb.owner ≠ .free ∧ streaming.xfer = none ∧
      StepAsks streaming midStream (stepXfer midStream 1 [1])) ∧
    (let st := { midStream with wordWide := true }
     StepAsks streaming st (stepXfer st 2 [1, 2]) ∧ nextOut { st with walkEnd := some (.total, 2) } = 1 ∧
       (arrived ({ st with chunks := [⟨0, 1, 1, 4, 1, some [1]⟩] }).chunks).length < nextOut st) ∧
    (let s := { streaming with arb := live.arb }
     s.arb.owner = .free ∧ s.slot.line ≠ .asserted ∧ s.refresh.owed = 0 ∧ (∀ d, d ∈ s.dma.order → (s.chan d).state ≠ .ready) ∧
       StepAsks s midStream (stepXfer midStream 1 [1])) ∧
    stepping.arb.owner = .hostPath :=
  ⟨by decide, ⟨_, _, rfl, rfl, by decide⟩, ⟨_, rfl, by decide +kernel⟩, ⟨_, rfl, rfl, by decide, by decide, by decide, by decide,
    .inr (by decide)⟩, ⟨.inr (by decide), by decide, by decide⟩, ⟨by decide, by decide, by decide, by decide, .inr (by decide)⟩, by decide⟩

theorem witness_StreamReadsFillTheBuffer :
    (∃ x, streaming.stream.active = some midStream ∧ streaming.queue.exec = some x ∧ x.phase = .active ∧ midStream.isIn = false ∧
      midStream.walkEnd = none ∧ streaming.order = [] ∧
      64 = min (min 64 (segLength (streaming.segment midStream.seg) - midStream.off))
        (min (4096 - (segHost (streaming.segment midStream.seg) + midStream.off) % 4096) (midStream.total - midStream.placed)) ∧
      heldBytes midStream + 64 ≤ 512 ∧ midStream.moved < midStream.placed + 64) ∧
    (let st := { midStream with walkEnd := some (.total, 1000) }
     st.walkEnd ≠ none ∧ (1000 : Nat) ≠ st.moved ∧ ∀ k, k ∈ st.chunks → k.id ≠ 9) ∧
    (∃ st pre k, (after .streamReadForm streaming).stream.active = some st ∧ st.chunks = pre ++ k :: [] ∧ k.data = none ∧
      (∀ k', k' ∈ pre ++ [] → k'.id ≠ k.id) ∧ OrderItem.read (.stream k.id) ∉ (after .streamReadForm streaming).order ∧
      (bytesFrom 0 64).length = k.len ∧ (∀ k', k' ∈ pre → k'.pos < k.pos) ∧ k.pos ≠ st.moved) ∧
    (∃ st k, streamingOut.stream.active = some st ∧ st.chunks = [] ++ k :: [] ∧ k.data = none ∧ k.pos = st.moved ∧
      streamingOut.arb.owner ≠ .hostPath ∧ st.piece = none) :=
  ⟨⟨_, rfl, rfl, by decide⟩, by decide, ⟨_, [⟨0, 1, 63, 4, 1, some (bytesFrom 1 63)⟩], ⟨1, 64, 64, 4, 64, none⟩, rfl, by decide⟩,
    ⟨_, _, rfl, rfl, by decide⟩⟩

/-! ### The return ring -/

/-- The board with one record owed, of the kind a setter gives. -/
def owed (f : State → State) : State := f { fullRing with ret := ⟨true, 0x1000, 64, 64, 1, true⟩ }

theorem witness_ReturnWriterWritesTheFirstWaiting :
    (State.reset.ret.ringSet = false ∧ fullRing.ret.size ≤ (fullRing.ret.w - fullRing.ret.c).toNat) ∧
    ((owed id).ret.ringSet = true ∧ ((owed id).ret.w - (owed id).ret.c).toNat = 63 ∧ 63 < (owed id).ret.size) ∧
    (returning.queue.place = .response ∧ ∃ e, returning.queue.exec = some e) ∧
    (let q := claimPlace (answering 1 live).queue
     q.place = .control ∧ ∃ c cs, q.controls = c :: cs) ∧
    (let s := after .returnRecordWrite returning
     s.queue.place = .empty ∧ s.irq.poll = none ∧ s.irq.pollWaiting = false ∧ ∃ d, s.irq.delivery = some d ∧ d.posting = true) ∧
    (∀ d, (owed id).irq.delivery = some d → d.posting = false) ∧ (∀ b : Chan, b.num < 7 → OwesNothing (owed id) b) ∧
    (((owed (withChan .c7 { capture with owedFaults := 0x3F, tcOwed := 255 })).chan .c7).owedFaults ≠ 0) ∧
    (((owed (withChan .c7 { capture with tcOwed := 255 })).chan .c7).owedFaults = 0 ∧
      ((owed (withChan .c7 { capture with tcOwed := 255 })).chan .c7).tcOwed ≠ 0) ∧
    (∀ c, OwesNothing (owed id) c) ∧ (∃ f, (after (.lineFillComplete .error) filling).master.owedFault = some f) ∧
    ((owed id).master.owedFault = none ∧ ∃ f, (after (.cardCheckEdge false) live).slot.slotFault = some f) ∧
    ((owed id).slot.slotFault = none ∧ (owed (fun s => { s with refresh := { s.refresh with late := true } })).refresh.late = true) ∧
    ((owed id).refresh.late = false ∧ (owed id).intake.owed = none ∧ ∃ k, (after (.unknown ⟨0, false⟩) live).intake.owed = some k) := by
  refine ⟨by decide, by decide, ⟨by decide, _, rfl⟩, ⟨by decide, _, _, rfl⟩, ⟨by decide, by decide, by decide, _, rfl, rfl⟩,
    (fun d h => by cases h), fun b _ => ?_, by decide, by decide, fun b => ?_, ⟨_, rfl⟩, ⟨by decide, _, rfl⟩, by decide,
    by decide, by decide, _, rfl⟩ <;> (unfold OwesNothing; revert b; exact all_chans (by decide))

/-- An abort's answer held back, with and without a response waiting, and the same free. -/
theorem witness_ReturnWriter_held :
    (HeadHeldBack answerHeld ∧ answerHeld.queue.exec = none ∧ answerHeld.ret.ringSet = true ∧
      (answerHeld.ret.w - answerHeld.ret.c).toNat < answerHeld.ret.size ∧ answerHeld.irq.poll = none ∧
      answerHeld.irq.pollWaiting = false ∧ ∃ d, answerHeld.irq.delivery = some d ∧ d.posting = true) ∧
    (HeadHeldBack answerThird ∧ (answerThird.ret.w - answerThird.ret.c).toNat < answerThird.ret.size ∧
      ∃ e, answerThird.queue.exec = some e ∧ e.phase = .ended ∧ e.responds = true) ∧
    (answerFree.queue.place = .control ∧ (answerFree.ret.w - answerFree.ret.c).toNat < answerFree.ret.size ∧
      ∃ c cs, answerFree.queue.controls = c :: cs ∧ ¬ GoesBehind answerFree c) := by
  refine ⟨⟨⟨by decide, _, _, rfl, 0, rfl, .inl ⟨_, rfl, by decide⟩⟩, by decide, by decide, by decide, by decide, by decide, _, rfl,
      by decide⟩,
    ⟨⟨by decide, _, _, rfl, 0, rfl, .inl ⟨_, rfl, by decide⟩⟩, by decide, _, rfl, by decide⟩, by decide, by decide, _, _, rfl, ?_⟩
  rintro ⟨n, -, ⟨d, h, -⟩ | ⟨b, h⟩ | ⟨f, h, -⟩⟩
  · exact absurd h (by rw [show answerFree.irq.delivery = none by decide]; nofun)
  · exact absurd h (by rw [all_chans (p := fun c => (answerFree.chan c).faultCauses = []) (by decide) b]; nofun)
  · exact absurd h (by rw [show answerFree.master.owedFault = none by decide]; nofun)

/-! ### Tables and settings -/

theorem witness_TableWriteMergesAndChecks :
    3 < (4 : Byte).toNat ∧ (32 ≤ field (0x00000020 : Word) 0 16 ∧ 3 < field (0x00040000 : Word) 16 8) ∧
    (∃ old, board.windows.toList[31]? = some old ∧ field (0x0003001F : Word) 16 8 ≤ 3) ∧
    (∃ old, board.map.toList[31]? = some old ∧ field (0x0003001F : Word) 16 8 ≤ 3) ∧
    (∃ old, board.segments.toList[63]? = some old ∧ 64 ≤ field (0x00000040 : Word) 0 16) ∧
    (let e : Entry := ⟨0x1, 0x10000, 0x10000, 0⟩
     e.valid = true ∧ (if winMemory e then 2 ^ 24 else 2 ^ 16) ≤ winBase e) ∧
    (let e : Entry := ⟨0x3, 0xFFFFFF, 0xFFFFFF, 0⟩
     winAction e ≠ 3 ∧ winBase e ≤ winLimit e ∧ winBase e < (if winMemory e then 2 ^ 24 else 2 ^ 16) ∧
      winLimit e < (if winMemory e then 2 ^ 24 else 2 ^ 16)) ∧
    (let e : Entry := ⟨0x0FFF0005, 1, 0, 0⟩
     e.valid = true ∧ 4096 < mapF e + mapN e) ∧
    (let e : Entry := ⟨0x0FFF0005, 0, 0xFFFFFFFF, 0xFFFFF⟩
     mapAccess e ≠ 3 ∧ mapF e + mapN e ≤ 4096 ∧ mapG e + mapN e ≤ 2 ^ 52) ∧
    (let e : Entry := ⟨0x00004001, 0, 0, 0⟩
     e.valid = true ∧ 64 ≤ segNext e ∧ segNext e ≠ 127) ∧
    (let e : Entry := ⟨0x00007F01, 0xFFFFFFFF, 0xFFFFFFFF, 0⟩
     segNext e = 127 ∧ segHost e + segLength e ≤ 2 ^ 64) :=
  ⟨by decide, by decide, ⟨_, rfl, by decide⟩, ⟨_, rfl, by decide⟩, ⟨_, rfl, by decide⟩, by decide, by decide, by decide, by decide,
    by decide, by decide⟩

theorem witness_SettingsWriteIsClampedAndApplied :
    (∃ r, takenRecord (taking (req .tableWrite 1 3 0x00030000 0 0) board) = some r ∧ r.kind = .tableWrite ∧ r.sub = 3 ∧
      field r.addr 0 16 = 0 ∧ field r.addr 16 8 = 3) ∧
    board.irq.poll = none ∧ board.irq.pollWaiting = false ∧
    field (0x00000001 : Word) 0 16 ≠ 0 ∧ 3 < field (0x00040000 : Word) 16 8 ∧
    setTopCode ⟨0, 0, 15, 0⟩ ∈ [3, 4, 5, 6, 7, 9, 10, 11, 12, 14, 15] ∧
    ([0, 2, 8, 13, 16, 255].map (fun n => setTopCode ⟨0, 0, BitVec.ofNat 32 n, 0⟩) = [0, 2, 8, 13, 16, 255]) ∧ board.arb.owner = .free ∧ busy.arb.owner ≠ .free :=
  ⟨⟨_, rfl, rfl, rfl, by decide, by decide⟩, rfl, rfl, by decide, by decide, by decide, by decide, by decide, by decide⟩

theorem witness_TableReadGivesTwoWords :
    (∃ r, takenRecord (taking (req .tableRead 0 2 0x0003003F 0 0) board) = some r ∧ r.kind = .tableRead ∧ field r.addr 0 16 = 63 ∧
      field r.addr 16 8 = 3) ∧ 64 ≤ field (0x00000040 : Word) 0 16 ∧ 3 < field (0x00040000 : Word) 16 8 :=
  ⟨⟨_, rfl, rfl, by decide, by decide⟩, by decide, by decide⟩

theorem witness_TableClearGivesResetValues :
    (∃ r, takenRecord (taking (req .tableClear 2 3 0xFFFF 0 0) board) = some r ∧ r.kind = .tableClear ∧ flag1 r = true ∧ r.sub = 3) ∧
    (flag1 (req .tableClear 0 1 31 0 0) = false ∧ field (req .tableClear 0 1 31 0 0).addr 0 16 < 32) ∧
    (flag1 (req .tableClear 0 1 32 0 0) = false ∧ 32 ≤ field (req .tableClear 0 1 32 0 0).addr 0 16) ∧ 3 < (4 : Byte).toNat :=
  ⟨⟨_, rfl, rfl, by decide, rfl⟩, by decide, by decide, by decide⟩

theorem witness_IdentifyNamesTheBoard :
    ∃ r, takenRecord (taking (req .identify 0 0 0 0 0) State.reset) = some r ∧ r.kind = .identify := ⟨_, rfl, rfl⟩

/-! ### Grants, invariants and records -/

theorem witness_GrantsFollowOneOrder :
    busy.arb.owner ≠ .free ∧ (State.reset.arb.owner = .free ∧ State.reset.slot.line = .asserted) ∧
    (let s := { withChan .c1 { capture with state := .ready } streaming with
        xfer := some (stepXfer midStream 1 [1]), arb := { board.arb with hostWaiting := true } }
     s.arb.owner = .free ∧ s.slot.line ≠ .asserted ∧ s.xfer ≠ none ∧ s.refresh.owed = 0 ∧ s.arb.hostTurn = false ∧
      s.dma.order = [.c0] ++ .c1 :: [.c2, .c3, .c5, .c6, .c7] ∧ (s.chan .c1).state = .ready ∧
      (∀ b, b ∈ [Chan.c0] → (s.chan b).state ≠ .ready) ∧ (s.chan .c1).mode ≠ .master) ∧
    (let s := withChan .c1 { capture with state := .ready } board
     s.arb.owner = .free ∧ s.slot.line ≠ .asserted ∧ s.xfer = none ∧ s.arb.hostWaiting = false ∧ s.refresh.owed = 0 ∧
      (s.chan .c1).state = .ready ∧ ∀ b, b ∈ [Chan.c0] → (s.chan b).state ≠ .ready) ∧
    (let s := { streaming with
        xfer := some (stepXfer midStream 1 [1]), arb := { board.arb with hostWaiting := true, hostTurn := true } }
     s.arb.owner = .free ∧ s.slot.line ≠ .asserted ∧ s.refresh.owed = 0 ∧ s.arb.hostTurn = true ∧ s.arb.hostWaiting = true ∧
      s.xfer ≠ none) ∧
    (board.arb.owner = .free ∧ board.slot.line ≠ .asserted ∧ board.refresh.owed = 0 ∧ board.arb.hostWaiting = false ∧
      ∀ c, c ∈ board.dma.order → (board.chan c).state ≠ .ready) ∧
    0 < { board with refresh := ⟨0, 1, 0, false, false⟩ }.refresh.owed := by decide

/-- The states the invariants are witnessed on: after link reset, and with a slot cycle in progress (one step from there each). -/
theorem witness_StepKeepsMasksAndOrder :
    MaskAgrees (verifying .demand 1) ∧ OrderGood (verifying .demand 1) ∧ ∃ t, step (verifying .demand 1) = .next t :=
  ⟨all_chans (by decide), ⟨.c7, by decide⟩, _, rfl⟩

theorem witness_StepKeepsOneCycleForTheOwner :
    BusGood (verifying .demand 1) ∧ ∃ t, step { verifying .demand 1 with pending := [.unitCycleEnd true 0] } = .next t :=
  ⟨⟨by decide, fun _ h => by cases h; decide, by decide⟩, _, rfl⟩

theorem witness_StepKeepsTheQueue : QueueGood wordRead ∧ QueueGood fullQueue ∧ ∃ t, step wordRead = .next t :=
  ⟨⟨by decide, by decide, by decide, fun _ h => by cases h; decide⟩, ⟨by decide, by decide, by decide, fun _ h => by cases h⟩, _, rfl⟩

theorem witness_StepKeepsRingAndCounters :
    RingGood fullRing ∧ CountsGood { live with intake := ⟨true, 255, none⟩ } ∧ CountsGood fullRing ∧ DeliveryGood fullRing ∧
      ∃ t, step fullRing = .next t :=
  ⟨⟨by decide, by decide⟩, ⟨by decide, by decide, by decide, all_chans (by decide)⟩,
    ⟨by decide, by decide, by decide, all_chans (by decide)⟩, .inl rfl, _, rfl⟩

theorem witness_StepKeepsTablesAndSettings : TablesGood board ∧ SettingsGood board ∧ ∃ t, step board = .next t :=
  ⟨⟨by decide, by decide, by decide⟩, by unfold SettingsGood; decide, _, rfl⟩

theorem witness_StepKeepsBuffers :
    BuffersGood { filling with host := ⟨[(0x1000, 7), (0x1001, 8)], 0, true⟩ } ∧ ∃ t, step filling = .next t :=
  ⟨⟨by decide, by decide, And.intro (fun _ h => by cases h) (fun _ h _ => by cases h; decide)⟩, _, rfl⟩

theorem witness_WholeRecordsDecodeToThemselves :
    ([req .identify 1 0 0 0 0] ≠ [] ∧ (0x7F0 : BitVec 12).toNat % 16 = 0 ∧ (0x7F0 : BitVec 12).toNat + 16 * 1 ≤ 0x800) ∧
    (0 : BitVec 12).toNat + 16 * (List.replicate 128 (req .identify 1 0 0 0 0)).length ≤ 0x800 :=
  ⟨by decide, by simp⟩

/-- The first step from link reset runs the command in front. -/
theorem test_step_runs_front :
    (match step { State.reset with pending := [.linkReset, .hostWriteIssue] } with
      | .next t => t.pending
      | _ => []) = [.hostWriteIssue] := by decide

end Sys2Proof.Tests
end

section
/-! PROOF. Slot requests answered on the board: what the operand check, the window lookup and the three window actions come to. -/

namespace Sys2Proof.Machine

/-! ## The checks of a slot request -/

/-- The model's operand check is R6's. -/
theorem slotOperandsGood_iff (sp : Space) (r : Record) : slotOperandsGood sp r = true ↔ slotCheck sp r := by
  cases sp <;> simp [slotOperandsGood, slotCheck, and_assoc]

/-- No slot request that passes its operand check is wider than 4 bytes (R6). -/
theorem width_le_of_slotCheck {sp : Space} {r : Record} (h : slotCheck sp r) : r.sub.toNat ≤ 4 := by
  cases sp with
  | port => obtain ⟨h1 | h2, -⟩ := h <;> simp_all
  | memory => exact h.2.1

/-- The model's window test is R25's. -/
theorem winContains_iff (sp : Space) (a : Nat) (e : Entry) : winContains sp a e = true ↔ windowHolds e sp a := by
  simp [winContains, windowHolds, and_assoc]

/-- With no window that holds the first byte the lookup answers NO WINDOW (R25). -/
theorem decideWindow_none {ws : Vector Entry 32} {sp : Space} {a : Nat} (w : Nat)
    (h : ∀ e, e ∈ ws.toList → ¬ windowHolds e sp a) : decideWindow ws sp a w = .error .noWindow := by
  have hf : ws.toList.find? (winContains sp a) = none :=
    List.find?_eq_none.2 fun e he => (winContains_iff sp a e).not.2 (h e he)
  simp only [decideWindow, hf]

/-- The lookup finds the deciding entry. -/
theorem find_of_decides {s : State} {n : Nat} {e : Entry} {sp : Space} {a : Nat} (h : Decides s n e sp a) :
    s.windows.toList.find? (winContains sp a) = some e := by
  obtain ⟨hat, hholds, hfirst⟩ := h
  obtain ⟨hn, hget⟩ := List.getElem?_eq_some_iff.1 hat
  refine List.find?_eq_some_iff_getElem.2 ⟨(winContains_iff ..).2 hholds, n, hn, hget, fun m hm => ?_⟩
  have hnot := hfirst m _ hm (List.getElem?_eq_getElem (hm.trans hn))
  simpa [← winContains_iff] using hnot

/-- The deciding entry alone tells a request whose bytes run past it (R26). -/
theorem decideWindow_of_decides {s : State} {n : Nat} {e : Entry} {sp : Space} {a : Nat} (w : Nat) (h : Decides s n e sp a) :
    decideWindow s.windows sp a w = if winLimit e < a + w - 1 then .error .span else .ok e := by
  simp only [decideWindow, find_of_decides h]

/-- A FILL read's bytes: the fill byte to the width, 00h from there to eight (R28). -/
theorem pad8_replicate {w : Nat} (b : Byte) (h : w ≤ 8) :
    pad8 (List.replicate w b) = List.replicate w b ++ List.replicate (8 - w) 0 := by
  have hz : zeros8 = List.replicate 8 0 := rfl
  simp only [pad8, hz, List.take_append, List.take_replicate, List.length_replicate, Nat.min_eq_right h,
    Nat.min_eq_left (Nat.sub_le 8 w)]

/-! ## What a slot request comes to, check by check -/

section
variable {sp : Space} {rd : Bool} {r : Record} {s : State} {n : Nat} {e : Entry}

theorem slotRequest_badRequest (hc : ¬ slotCheck sp r) : slotRequest sp rd r s = answerPlain .badRequest s := by
  have hg := (slotOperandsGood_iff sp r).not.2 hc
  simp [slotRequest, hg]

theorem slotRequest_held (hc : slotCheck sp r) (hh : s.slot.held = true) : slotRequest sp rd r s = answerPlain .held s := by
  have hg := (slotOperandsGood_iff sp r).2 hc
  simp [slotRequest, hg, hh]

/-- Past the operand check and the held check, what the window lookup refuses is refused (R25, R26). -/
theorem slotRequest_of_error {st : Status} (hc : slotCheck sp r) (hh : s.slot.held = false)
    (hw : decideWindow s.windows sp r.addr.toNat r.sub.toNat = .error st) : slotRequest sp rd r s = answerPlain st s := by
  have hg := (slotOperandsGood_iff sp r).2 hc
  simp [slotRequest, hg, hh, hw]

/-- Past the operand check and the held check, the entry the window lookup finds acts (R27, R28, R29). -/
theorem slotRequest_of_ok (hc : slotCheck sp r) (hh : s.slot.held = false)
    (hw : decideWindow s.windows sp r.addr.toNat r.sub.toNat = .ok e) : slotRequest sp rd r s = actOnWindow sp rd e r s := by
  have hg := (slotOperandsGood_iff sp r).2 hc
  simp [slotRequest, hg, hh, hw]

theorem slotRequest_noWindow (hc : slotCheck sp r) (hh : s.slot.held = false)
    (hn : ∀ e, e ∈ s.windows.toList → ¬ windowHolds e sp r.addr.toNat) :
    slotRequest sp rd r s = answerPlain .noWindow s :=
  slotRequest_of_error hc hh (decideWindow_none _ hn)

theorem slotRequest_span (hc : slotCheck sp r) (hh : s.slot.held = false) (hd : Decides s n e sp r.addr.toNat)
    (hl : winLimit e < r.addr.toNat + r.sub.toNat - 1) : slotRequest sp rd r s = answerPlain .span s :=
  slotRequest_of_error hc hh ((decideWindow_of_decides _ hd).trans (if_pos hl))

/-- A request that lies in its deciding entry is that entry's to act on (R27, R28, R29). -/
theorem slotRequest_act (hc : slotCheck sp r) (hh : s.slot.held = false) (hd : Decides s n e sp r.addr.toNat)
    (hl : r.addr.toNat + r.sub.toNat - 1 ≤ winLimit e) : slotRequest sp rd r s = actOnWindow sp rd e r s :=
  slotRequest_of_ok hc hh ((decideWindow_of_decides _ hd).trans (if_neg hl.not_gt))

theorem slotRequest_refuse (hc : slotCheck sp r) (hh : s.slot.held = false) (hd : Decides s n e sp r.addr.toNat)
    (hl : r.addr.toNat + r.sub.toNat - 1 ≤ winLimit e) (ha : winAction e = 2) :
    slotRequest sp rd r s = answerPlain .refusedByWindow s := by
  rw [slotRequest_act hc hh hd hl]
  simp [actOnWindow, actionRefuse, ha]

theorem slotRequest_fill (hc : slotCheck sp r) (hh : s.slot.held = false) (hd : Decides s n e sp r.addr.toNat)
    (hl : r.addr.toNat + r.sub.toNat - 1 ≤ winLimit e) (ha : winAction e = 1) :
    slotRequest sp rd r s = endRequest .ok r.sub.toNat (fillData rd e r.sub.toNat) s := by
  rw [slotRequest_act hc hh hd hl]
  simp [actOnWindow, actionRefuse, actionFill, ha]

end

/-! ## The four commands -/

/-- Each of the four commands executes the record taken, if it is of its kind, as a slot request of its space and direction. -/
theorem exec_slotRow {c : Instr} {k : ReqKind} {sp : Space} {rd : Bool} {s : State} {r : Record} (hrow : (c, k, sp, rd) ∈ slotRows)
    (ht : takenRecord s = some r) (hk : r.kind = k) : exec c s = .next (slotRequest sp rd r (setPhase .active s)) := by
  have hw : whenTaken (ofKind k) (slotRequest sp rd) s = slotRequest sp rd r (setPhase .active s) :=
    whenTaken_taken _ ht (by simp [ofKind, hk])
  have he : exec c s = .next (whenTaken (ofKind k) (slotRequest sp rd) s) := by
    simp only [slotRows, List.mem_cons, Prod.mk.injEq, List.not_mem_nil, or_false] at hrow
    obtain ⟨rfl, rfl, rfl, rfl⟩ | ⟨rfl, rfl, rfl, rfl⟩ | ⟨rfl, rfl, rfl, rfl⟩ | ⟨rfl, rfl, rfl, rfl⟩ := hrow <;> rfl
  rw [he, hw]

/-- A record taken is the request in flight, in the phase that says so (R37). -/
theorem exec_of_takenRecord {s : State} {r : Record} (ht : takenRecord s = some r) :
    ∃ x, s.queue.exec = some x ∧ x.phase = .taken ∧ x.request = r := by
  unfold takenRecord at ht
  split at ht
  case h_1 x hx =>
    obtain ⟨hp, hr⟩ := Option.ite_none_right_eq_some.1 ht
    exact ⟨x, hx, hp, Option.some.inj hr⟩
  case h_2 => cases ht

/-- A record that has been taken and is executed to an outcome at once reaches it from the state that took it. -/
theorem endRequest_of_taken {s : State} {r : Record} (st : Status) (n : Nat) (d : List Byte) (ht : takenRecord s = some r) :
    Ends r st n d s (endRequest st n d (setPhase .active s)) := by
  obtain ⟨x, hx, -, rfl⟩ := exec_of_takenRecord ht
  have hex : (setPhase .active s).queue.exec = some { x with phase := .active } := by
    simp [setPhase, State.putQueue, hx]
  exact ends_of_setPhase (endRequest_ends st n d _ { x with phase := .active } hex)

/-- A plain answer whose response is still to be written has not retired, so the queue state stands (R39, R40). -/
theorem EndsPlain.keeps_queue_state {r : Record} {st : Status} {s t : State} (h : EndsPlain r st s t)
    (hr : respondsWith r st = true) : t.queue.state = s.queue.state := by
  rw [(h.responds hr).2]

/-- REFUSED always writes a response, whatever the respond flag (R27, R39). -/
theorem respondsWith_refusedByWindow (r : Record) : respondsWith r .refusedByWindow = true := rfl

/-- Settles O11: each answer is the outcome that `slotRequest` comes to under the checks before it. -/
theorem slotRequestsAreAnsweredOnTheBoard : Obligations.SlotRequestsAreAnsweredOnTheBoard := by
  intro c k sp rd hrow s r ht hk
  have hexec := exec_slotRow hrow ht hk
  have ends (st n d) (h : slotRequest sp rd r (setPhase .active s) = endRequest st n d (setPhase .active s)) :
      ∃ t, exec c s = .next t ∧ Ends r st n d s t :=
    ⟨_, hexec.trans (congrArg _ h), endRequest_of_taken st n d ht⟩
  refine ⟨fun hc => ends _ _ _ (slotRequest_badRequest hc), fun hc hh => ends _ _ _ (slotRequest_held hc hh),
    fun hc hh hn => ends _ _ _ (slotRequest_noWindow hc hh hn), fun n e hc hh hd => ⟨?span, ?refuse, ?fill⟩⟩
  case span => exact fun hl => ends _ _ _ (slotRequest_span hc hh hd hl)
  case refuse =>
    intro hl ha
    obtain ⟨t, hnext, hends⟩ := ends _ _ _ (slotRequest_refuse hc hh hd hl ha)
    have hr := respondsWith_refusedByWindow r
    exact ⟨t, hnext, hr, hends, hends.frame.slot rfl, hends.frame.arb rfl, EndsPlain.keeps_queue_state hends hr⟩
  case fill =>
    intro hl ha
    have hdata : fillData rd e r.sub.toNat =
        if rd then List.replicate r.sub.toNat (winFill e) ++ List.replicate (8 - r.sub.toNat) 0
        else [0, 0, 0, 0, 0, 0, 0, 0] := by
      rw [fillData, pad8_replicate _ ((width_le_of_slotCheck hc).trans (by decide)), zeros8]
    exact hdata ▸ ends _ _ _ (slotRequest_fill hc hh hd hl ha)

end Sys2Proof.Machine
end

section
/-! PROOF. The legacy address of a unit (R89): a byte channel's page and offset, a word channel's block and even offset. -/

namespace Sys2Proof.Machine

/-! ## Byte and word channels -/

theorem isWord_eq_false_iff {c : Chan} : c.isWord = false ↔ c ∈ [Chan.c0, .c1, .c2, .c3] := by
  cases c <;> decide

theorem isWord_iff {c : Chan} : c.isWord = true ↔ c ∈ [Chan.c5, .c6, .c7] := by
  cases c <;> decide

theorem unit_of_byte {c : Chan} (h : c.isWord = false) : c.unit = 1 := by simp [Chan.unit, h]

theorem unit_of_word {c : Chan} (h : c.isWord = true) : c.unit = 2 := by simp [Chan.unit, h]

/-! ## A byte channel: the page and the offset within it -/

theorem legacyAddr_byte {c : Chan} (h : c.isWord = false) (p : BitVec 8) (a : BitVec 16) :
    legacyAddr c p a = p.toNat * 65536 + a.toNat := by simp [legacyAddr, h]

theorem legacyAddr_byte_div {c : Chan} (h : c.isWord = false) (p : BitVec 8) (a : BitVec 16) :
    legacyAddr c p a / 65536 = p.toNat := by
  have ha := a.isLt
  rw [legacyAddr_byte h]
  omega

/-! ## A word channel: the 128 KiB block, which half the page numbers, and the even offset within it -/

theorem legacyAddr_word {c : Chan} (h : c.isWord = true) (p : BitVec 8) (a : BitVec 16) :
    legacyAddr c p a = (p.toNat - p.toNat % 2) * 65536 + 2 * a.toNat := by simp [legacyAddr, h]

theorem legacyAddr_word_block {c : Chan} (h : c.isWord = true) (p : BitVec 8) (a : BitVec 16) :
    legacyAddr c p a = p.toNat / 2 * 131072 + 2 * a.toNat := by
  rw [legacyAddr_word h]
  omega

theorem legacyAddr_word_even {c : Chan} (h : c.isWord = true) (p : BitVec 8) (a : BitVec 16) :
    legacyAddr c p a % 2 = 0 := by
  rw [legacyAddr_word_block h]
  omega

theorem legacyAddr_word_div {c : Chan} (h : c.isWord = true) (p : BitVec 8) (a : BitVec 16) :
    legacyAddr c p a / 131072 = p.toNat / 2 := by
  have ha := a.isLt
  rw [legacyAddr_word_block h]
  omega

/-- Changing the low bit of a page leaves it in its block. -/
theorem toNat_xor_one_div_two (p : BitVec 8) : (p ^^^ 1).toNat / 2 = p.toNat / 2 := by
  simp [BitVec.toNat_xor, Nat.xor_div_two]

theorem legacyAddr_word_xor_one {c : Chan} (h : c.isWord = true) (p : BitVec 8) (a : BitVec 16) :
    legacyAddr c (p ^^^ 1) a = legacyAddr c p a := by
  rw [legacyAddr_word_block h, legacyAddr_word_block h, toNat_xor_one_div_two]

/-! ## Every channel -/

theorem legacyAddr_lt (c : Chan) (p : BitVec 8) (a : BitVec 16) : legacyAddr c p a < 2 ^ 24 := by
  have hp := p.isLt
  have ha := a.isLt
  cases h : c.isWord with
  | false => rw [legacyAddr_byte h]; omega
  | true => rw [legacyAddr_word_block h]; omega

/-- Settles O25: a byte channel's address is page and offset, a word channel's block and even offset. -/
theorem legacyAddressOfAUnit : Obligations.LegacyAddressOfAUnit := by
  intro c p a
  refine ⟨fun hc => ?byte, fun hc => ?word, legacyAddr_lt c p a, by decide⟩
  case byte =>
    have h := isWord_eq_false_iff.2 hc
    exact ⟨unit_of_byte h, legacyAddr_byte h p a, legacyAddr_byte_div h p a⟩
  case word =>
    have h := isWord_iff.2 hc
    exact ⟨unit_of_word h, legacyAddr_word h p a, legacyAddr_word_even h p a, legacyAddr_word_xor_one h p a,
      legacyAddr_word_div h p a⟩

end Sys2Proof.Machine
end

section
/-! PROOF. RING SET (R163): what its operands are clamped to, what one record put in the ring leaves, and what a record of a write leaves
of the queue. -/

namespace Sys2Proof.Machine

/-! ## The clamped operands (R163) -/

theorem clampBase_toNat (base : BitVec 64) : (clampBase base).toNat = base.toNat / 16 * 16 := by
  have hb := base.isLt
  have hr : (BitVec.ofNat 64 (base.toNat % 16)).toNat = base.toNat % 16 := by
    rw [BitVec.toNat_ofNat]
    exact Nat.mod_eq_of_lt (by omega)
  rw [clampBase, BitVec.toNat_sub_of_le (BitVec.le_def.2 (by omega)), hr]
  omega

theorem clampSize_mem (n : Nat) : clampSize n ∈ ringSizes := by
  unfold clampSize
  repeat' split
  all_goals simp [ringSizes]

theorem clampSize_le {n : Nat} (h : 64 ≤ n) : clampSize n ≤ n := by
  unfold clampSize
  repeat' split
  all_goals omega

theorem clampSize_of_lt {n : Nat} (h : n < 64) : clampSize n = 64 := by
  unfold clampSize
  repeat' split
  all_goals omega

theorem le_clampSize {n y : Nat} (hy : y ∈ ringSizes) (h : y ≤ n) : y ≤ clampSize n := by
  simp only [ringSizes, List.mem_cons, List.not_mem_nil, or_false] at hy
  unfold clampSize
  repeat' split
  all_goals omega

theorem le_of_mem_ringSizes {y : Nat} (hy : y ∈ ringSizes) : 64 ≤ y := by
  revert y
  decide

/-- The ring size a size operand is clamped to is told by two facts: it is not above the operand, but for 64 below 64, and no ring size
between them is left out (R163). -/
theorem clampSize_eq {n z : Nat} (hz : z ∈ ringSizes) (hle : z ≤ n ∨ (z = 64 ∧ n < 64))
    (hmax : ∀ y, y ∈ ringSizes → y ≤ n → y ≤ z) : clampSize n = z := by
  rcases hle with hle | ⟨rfl, hlt⟩
  · have h64 := (le_of_mem_ringSizes hz).trans hle
    exact le_antisymm (hmax _ (clampSize_mem n) (clampSize_le h64)) (le_clampSize hz hle)
  · exact clampSize_of_lt hlt

theorem ringStatus_code (base : BitVec 64) (n : Nat) :
    (ringStatus base n).code = if clampBase base = base ∧ clampSize n = n then 0x00 else 0x01 := by
  unfold ringStatus
  split <;> rfl

/-! ## A record put in the ring (R162) -/

theorem sendMsi_eq (s : State) :
    sendMsi s = { s with order := s.order ++ (if s.host.msiEnabled then [.write .msi 0 []] else []) } := by
  unfold sendMsi
  split
  · rfl
  · simp

/-- A record takes the next slot, W rises, notice is disarmed, and where it was armed the MSI goes behind the record, if MSI is enabled. -/
theorem putRecord_eq (r : Return) (s : State) :
    putRecord r s = { s with
      ret := { s.ret with w := s.ret.w + 1, armed := false }
      order := s.order ++ [.write .record (slotAddr s.ret) (r.bytes (phaseFlag s.ret))] ++
        (if s.ret.armed ∧ s.host.msiEnabled then [.write .msi 0 []] else []) } := by
  unfold putRecord
  cases h : s.ret.armed with
  | true => simp [sendMsi_eq, decideWrite, State.putOrder]
  | false => simp [decideWrite, State.putOrder]

theorem slotAddr_newRing (base : BitVec 64) (n : Nat) : slotAddr (newRing base n) = (clampBase base).toNat := by
  simp [slotAddr, newRing]

theorem phaseFlag_newRing (base : BitVec 64) (n : Nat) : phaseFlag (newRing base n) = true := by
  simp [phaseFlag, newRing]

/-- The bytes of a RESPONSE whose data is eight bytes of 00h, with phase flag 1 (R174). -/
theorem responseRecord_bytes (tag kind : Byte) (st : Status) (n : Nat) :
    (responseRecord tag kind ⟨st, n, zeros8⟩).bytes true = [0x81, tag, kind, st.code] ++ le32 n ++ zeros8 := by
  simp [responseRecord, Return.bytes, flagBit, pad8, zeros8]

/-- RING SET in any state: the new ring with its response put in it, and nothing else (R163). -/
theorem ringSet_eq (tag : Byte) (base : BitVec 64) (n : Nat) (s : State) :
    ringSet tag base n s = { s with
      ret := { ringSet := true, base := clampBase base, size := clampSize n, w := 1, c := 0, armed := false }
      order := s.order ++
        [.write .record (clampBase base).toNat
          ([0x81, tag, 0x30, (ringStatus base n).code] ++ le32 (clampSize n) ++ zeros8)] ++
        (if s.host.msiEnabled then [.write .msi 0 []] else []) } := by
  rw [ringSet, putRecord_eq]
  simp only [slotAddr_newRing, phaseFlag_newRing, responseRecord_bytes]
  simp [newRing, ringSetCode]

/-! ## A record of a write to the request port (R160) -/

theorem responseWaits_iff (q : Queue) :
    responseWaits q = true ↔ ∃ e, q.exec = some e ∧ e.phase = .ended ∧ e.responds = true := by
  unfold responseWaits
  cases q.exec <;> simp

/-- What the model leaves of the queue after a record of a write is what the statements call `recordLeaves`. -/
theorem afterRecord_eq_recordLeaves (more : Bool) (old q : Queue) :
    Queue.afterRecord more old q = recordLeaves more old q := by
  have hplace : (q.place = .control && (old.tied || old.place ≠ .control)) = true ↔
      q.place = .control ∧ (old.place = .control → old.tied = true) := by
    cases old.tied <;> simp
  simp only [Queue.afterRecord, recordLeaves, hplace, responseWaits_iff]

/-- A record of a write that comes to `t` leaves `t`, but for what it leaves of the queue. -/
theorem inWrite_eq {more : Bool} {event : State → State} {s t : State} (h : event s = t) :
    inWrite more event s = { t with queue := recordLeaves more s.queue t.queue } := by
  subst h
  rw [inWrite, afterRecord_eq_recordLeaves]
  rfl

/-! ## RING SET -/

/-- Settles O5: the operands b and z are what the model clamps to, and RING SET's one event is part of a write. -/
theorem ringSetStartsANewRing : Obligations.RingSetStartsANewRing := by
  intro tag base size more b z s hb hz hle hmax
  have hbase : clampBase base = b := BitVec.eq_of_toNat_eq ((clampBase_toNat base).trans hb.symm)
  have hsize : clampSize size.toNat = z := clampSize_eq hz hle hmax
  have hexec : exec (.ringSet ⟨tag, more⟩ base size) s = .next (inWrite more (ringSet tag base size.toNat) s) := rfl
  rw [hexec, inWrite_eq (ringSet_eq tag base size.toNat s), ringStatus_code, hbase, hsize]

end Sys2Proof.Machine
end

section
/-! PROOF. IDENTIFY (R172): its response owes nothing to the respond flag, and its answer nothing to the state. -/

namespace Sys2Proof.Machine

/-- A kind that always responds writes its response whatever the outcome and the respond flag (R39). -/
theorem respondsWith_of_alwaysResponds {r : Record} (h : alwaysResponds r.kind = true) (st : Status) :
    respondsWith r st = true := by
  simp [respondsWith, h]

/-- IDENTIFY is of the kinds that always respond (R39, R172). -/
theorem alwaysResponds_of_identify {r : Record} (hk : r.kind = .identify) : alwaysResponds r.kind = true := by
  rw [hk, alwaysResponds]

/-- IDENTIFY executes the record taken, if it is of its kind, to the board's answer, with no check before it (R172). -/
theorem exec_identify {s : State} {r : Record} (ht : takenRecord s = some r) (hk : r.kind = .identify) :
    exec .identify s = .next (endRequest .ok partCode identifyData (setPhase .active s)) := by
  have hexec : exec .identify s = .next (whenTaken (ofKind .identify) identify s) := rfl
  have hkind : ofKind .identify r = true := by simp [ofKind, hk]
  rw [hexec, whenTaken_taken identify ht hkind, identify]

/-- Settles O51: the outcome IDENTIFY comes to is its part code and capacities, in any state that has taken it. -/
theorem identifyNamesTheBoard : Obligations.IdentifyNamesTheBoard := by
  intro s r ht hk
  have hresp : respondsWith r .ok = true := respondsWith_of_alwaysResponds (alwaysResponds_of_identify hk) .ok
  exact ⟨_, exec_identify ht hk, hresp, endRequest_of_taken .ok partCode identifyData ht⟩

end Sys2Proof.Machine
end

section
/-! PROOF. What every event keeps: one relation for the invariants that a step keeps, what each primitive update needs to keep them, and
the operations of the sequencer, the channels and the arbiter that are made of those updates. -/

namespace Sys2Proof.Machine

set_option Elab.async false

/-! ## The relation -/

/-- Each invariant of a run, but for the one cycle of the owner, that holds before an event holds after it. -/
structure Keeps (s t : State) : Prop where
  masks : MaskAgrees s → MaskAgrees t
  order : OrderGood s → OrderGood t
  queue : QueueGood s → QueueGood t
  delivery : DeliveryGood s → DeliveryGood t
  counts : CountsGood s → CountsGood t
  ring : RingGood s → RingGood t
  tables : TablesGood s → TablesGood t
  settings : SettingsGood s → SettingsGood t
  buffers : BuffersGood s → BuffersGood t

theorem Keeps.refl (s : State) : Keeps s s := ⟨id, id, id, id, id, id, id, id, id⟩

theorem Keeps.trans {s t u : State} (h : Keeps s t) (k : Keeps t u) : Keeps s u where
  masks := k.masks ∘ h.masks
  order := k.order ∘ h.order
  queue := k.queue ∘ h.queue
  delivery := k.delivery ∘ h.delivery
  counts := k.counts ∘ h.counts
  ring := k.ring ∘ h.ring
  tables := k.tables ∘ h.tables
  settings := k.settings ∘ h.settings
  buffers := k.buffers ∘ h.buffers

/-- The last event first: what it keeps of what the events before it keep. -/
theorem Keeps.after {s t u : State} (k : Keeps t u) (h : Keeps s t) : Keeps s u := h.trans k

theorem Keeps.ite {s t u : State} {p : Prop} [Decidable p] (h : p → Keeps s t) (k : ¬ p → Keeps s u) :
    Keeps s (if p then t else u) := by
  split
  · exact h ‹_›
  · exact k ‹_›

/-! ## Primitive updates -/

/-- The blocks that no invariant of the relation speaks of. -/
abbrev Touch.free : Touch :=
  { pending := true, slot := true, xfer := true, staging := true, order := true, stream := true, pins := true }

/-- An event within the blocks that no invariant speaks of keeps them all. -/
theorem Keeps.of_within {m : Touch} {s t : State} (h : Within m s t) (l : m.le Touch.free = true := by decide) : Keeps s t := by
  have k := h.mono l
  have hq := k.queue rfl
  have hi := k.irq rfl
  have hd := k.dma rfl
  have ha := k.arb rfl
  have hf := k.refresh rfl
  have hn := k.intake rfl
  have hr := k.ret rfl
  have hw := k.windows rfl
  have hm := k.map rfl
  have hg := k.segments rfl
  have hs := k.settings rfl
  have hh := k.host rfl
  have hp := k.master rfl
  constructor
  · simp only [MaskAgrees, State.chan, hd, imp_self]
  · simp only [OrderGood, hd, imp_self]
  · simp only [QueueGood, hq, imp_self]
  · simp only [DeliveryGood, hi, imp_self]
  · simp only [CountsGood, ha, hf, hn, State.chan, hd, imp_self]
  · simp only [RingGood, hr, imp_self]
  · simp only [TablesGood, hw, hm, hg, imp_self]
  · simp only [SettingsGood, hs, imp_self]
  · simp only [BuffersGood, LineAgrees, hh, hp, hm, imp_self]

/-- A channel record whose mask still agrees and whose owed count is still in its bound. -/
theorem Keeps.of_putChan {c : Chan} {ch : Channel} {s : State}
    (hm : (s.chan c).mask = (s.chan c).state.masked → ch.mask = ch.state.masked)
    (ht : (s.chan c).tcOwed ≤ 255 → ch.tcOwed ≤ 255) : Keeps s (s.putChan c ch) := by
  refine ⟨fun h d => ?_, id, id, id, fun h => ⟨h.1, h.2.1, h.2.2.1, fun d => ?_⟩, id, id, id, id⟩
  · rw [State.putChan_chan]
    split
    · exact hm (h c)
    · exact h d
  · rw [State.putChan_chan]
    split
    · exact ht (h.2.2.2 c)
    · exact h.2.2.2 d

/-- A channel that stays one of those whose mask is clear. -/
theorem Keeps.of_unmasked {c : Chan} {ch : Channel} {s : State} (h : (s.chan c).state.masked = false)
    (hs : ch.state.masked = false) (hm : ch.mask = (s.chan c).mask) (ht : ch.tcOwed = (s.chan c).tcOwed) :
    Keeps s (s.putChan c ch) :=
  Keeps.of_putChan (fun k => hm.trans (k.trans (h.trans hs.symm))) (fun k => ht.trans_le k)

theorem Keeps.of_putQueue {q : Queue} {s : State} (h : QueueGood s → QueueGood (s.putQueue q)) : Keeps s (s.putQueue q) :=
  ⟨id, id, h, id, id, id, id, id, id⟩

/-- An interrupt unit written behind an event, with candidate and poll selection apart if they were before both. -/
theorem Keeps.putIrq {i : Interrupts} {s t : State} (k : Keeps s t) (h : DeliveryGood s → DeliveryGood (t.putIrq i)) :
    Keeps s (t.putIrq i) :=
  ⟨k.masks, k.order, k.queue, h, k.counts, k.ring, k.tables, k.settings, k.buffers⟩

theorem Keeps.of_putIrq {i : Interrupts} {s : State} (h : DeliveryGood s → DeliveryGood (s.putIrq i)) : Keeps s (s.putIrq i) :=
  (Keeps.refl s).putIrq h

theorem Keeps.of_putLine (l : Line) (r : LineRec) (s : State) : Keeps s (s.putLine l r) :=
  ⟨id, id, id, id, id, id, id, id, id⟩

theorem Keeps.of_putArb {a : Arbiter} {s : State} (h : s.arb.dmaCount ≤ 255 → a.dmaCount ≤ 255) : Keeps s (s.putArb a) :=
  ⟨id, id, id, id, fun k => ⟨h k.1, k.2⟩, id, id, id, id⟩

/-- A master port with no more in its buffer, whose read line and fill still agree with the map. -/
theorem Keeps.of_putMaster {m : MasterPort} {s : State}
    (hb : s.master.buffer.length ≤ Config.masterEntries → m.buffer.length ≤ Config.masterEntries)
    (hl : LineAgrees s → LineAgrees (s.putMaster m)) : Keeps s (s.putMaster m) :=
  ⟨id, id, id, id, id, id, id, id, fun h => ⟨h.1, hb h.2.1, hl h.2.2⟩⟩

/-! ## The sequencer -/

/-- A queue whose records, answers and request in flight are as they were, and whose mark of a write still names a control answer. -/
theorem QueueGood.of_place {q : Queue} {s : State} (h : QueueGood s) (hr : q.records = s.queue.records)
    (hc : q.controls.length = s.queue.controls.length)
    (ht : (s.queue.tied = true → s.queue.place = .control) → q.tied = true → q.place = .control)
    (he : q.exec.map Exec.request = s.queue.exec.map Exec.request) : QueueGood (s.putQueue q) := by
  obtain ⟨h1, h2, h3, h4⟩ := h
  refine ⟨?_, ?_, ht h3, fun e hx => ?_⟩
  · simpa [State.putQueue, hr] using h1
  · simpa [State.putQueue, hc] using h2
  · have hx' : q.exec = some e := hx
    rw [hx', Option.map_some, eq_comm, Option.map_eq_some_iff] at he
    obtain ⟨e', he', hreq⟩ := he
    rw [State.putQueue, hr, ← hreq]
    exact h4 e' he'

/-- A claim leaves a control answer in the place where it is. -/
theorem claimPlace_of_control {q : Queue} (h : q.place = .control) : (claimPlace q).place = .control := by
  simp [claimPlace_place, h]

theorem takeHead_keeps (s : State) : Keeps s (takeHead s) := by
  unfold takeHead
  refine Keeps.ite (fun _ => Keeps.of_putQueue fun ⟨h1, h2, h3, _⟩ => ⟨h1, h2, h3, fun e he => ?_⟩) fun _ => Keeps.refl s
  simp only [State.putQueue, Option.map_eq_some_iff] at he ⊢
  obtain ⟨r, hr, rfl⟩ := he
  exact hr

theorem retire_keeps (s : State) : Keeps s (retire s) := by
  unfold retire
  split
  · exact Keeps.refl s
  · refine Keeps.trans ?_ (takeHead_keeps _)
    refine (Keeps.of_within (putActive_within none s)).trans (Keeps.of_putQueue fun ⟨h1, h2, h3, _⟩ => ⟨?_, ?_, fun ht => ?_, ?_⟩)
    · simpa [State.putQueue] using h1.trans' (Nat.sub_le _ 1)
    · simpa [State.putQueue] using h2
    · have hp : s.queue.place = .control := h3 (by simpa [State.putQueue] using ht)
      exact claimPlace_of_control (by simp [hp])
    · simp [State.putQueue]

theorem endWith_keeps (hf : Bool) (st : Status) (n : Nat) (d : List Byte) (s : State) : Keeps s (endWith hf st n d s) := by
  unfold endWith
  split
  · exact Keeps.refl s
  · rename_i e he
    have h1 : Keeps s (s.putQueue (claimPlace { s.queue with exec := some (e.finish st n d hf) })) :=
      Keeps.of_putQueue fun h => h.of_place (by simp) (by simp)
        (fun k ht => claimPlace_of_control (k (by simpa using ht))) (by simp [he, Exec.finish])
    exact Keeps.ite (fun _ => h1) fun _ => h1.trans (retire_keeps _)

theorem endRequest_keeps (st : Status) (n : Nat) (d : List Byte) (s : State) : Keeps s (endRequest st n d s) :=
  endWith_keeps ..

theorem answerPlain_keeps (st : Status) (s : State) : Keeps s (answerPlain st s) := endWith_keeps ..

/-- The request in flight keeps its record whatever else of it changes. -/
theorem mapExec_keeps (f : Exec → Exec) (s : State) (h : ∀ e, (f e).request = e.request) :
    Keeps s (s.putQueue { s.queue with exec := s.queue.exec.map f }) :=
  Keeps.of_putQueue fun hg => hg.of_place rfl rfl id (by cases s.queue.exec <;> simp [h])

theorem setPhase_keeps (p : ReqPhase) (s : State) : Keeps s (setPhase p s) := mapExec_keeps _ s fun _ => rfl

theorem setWork_keeps (w : Work) (s : State) : Keeps s (setWork w s) := mapExec_keeps _ s fun _ => rfl

theorem whenTaken_keeps {row : Record → Bool} {body : Record → State → State} (h : ∀ r s, Keeps s (body r s)) (s : State) :
    Keeps s (whenTaken row body s) := by
  unfold whenTaken
  split
  · exact Keeps.ite (fun _ => (setPhase_keeps _ s).trans (h _ _)) fun _ => Keeps.refl s
  · exact Keeps.refl s

/-- A control answer is put in a list that has room. -/
theorem pushControl_keeps (c : Control) {s : State} (h : controlsFull s = false) : Keeps s (pushControl c s) := by
  refine Keeps.of_putQueue fun ⟨h1, h2, h3, h4⟩ => ⟨?_, ?_, fun ht => ?_, ?_⟩
  · simpa [State.putQueue] using h1
  · simp only [controlsFull, decide_eq_false_iff_not, not_le] at h
    simpa [State.putQueue] using h
  · exact claimPlace_of_control (h3 (by simpa [State.putQueue] using ht))
  · simpa [State.putQueue] using h4

theorem inWrite_keeps {more : Bool} {event : State → State} {s : State} (h : Keeps s (event s)) : Keeps s (inWrite more event s) := by
  refine h.trans (Keeps.of_putQueue fun k => k.of_place ?_ ?_ (fun _ => Queue.afterRecord_tied) ?_)
  all_goals rw [Queue.afterRecord_eq]

theorem tallyWaits_keeps (f : Waits → Waits) (s : State) : Keeps s (tallyWaits f s) := by
  refine (mapExec_keeps (fun e => { e with work := tallyWork f e.work }) s fun _ => rfl).trans (Keeps.of_putIrq fun h => ?_)
  rcases h with h | h
  · exact .inl (by simpa [State.putIrq] using h)
  · exact .inr (by simpa [State.putIrq] using h)

/-- Marking what an event of the request in flight caused changes no field that an invariant speaks of (R50). -/
theorem causing_keeps {event : State → State} {s : State} (h : Keeps s (event s)) : Keeps s (causing event s) := by
  have hc (c : Chan) : (causing event s).chan c = Channel.blame (s.chan c) s.queue.number ((event s).chan c) := by
    cases c <;> rfl
  have ht (c : Chan) : ((causing event s).chan c).tcOwed = ((event s).chan c).tcOwed := by
    rw [hc, Channel.blame]
    split <;> rfl
  refine h.trans ⟨fun k c => ?_, id, id, fun k => ?_, fun k => ⟨k.1, k.2.1, k.2.2.1, fun c => ?_⟩, id, id, id, id⟩
  · rw [hc, Channel.blame_mask, Channel.blame_state]
    exact k c
  · rcases k with k | k
    · exact .inl (by simp [causing, k])
    · exact .inr k
  · rw [ht]
    exact k.2.2.2 c

theorem inChannelOrder_keeps {event : State → State} {s : State} (h : Keeps s (event s)) : Keeps s (inChannelOrder event s) :=
  h.trans (Keeps.of_within (putOrder_within _ _))

/-! ## Channels -/

/-- A fault recorded leaves mask, state and owed count. -/
theorem recordFault_keeps (f : ChanFault) (a : Nat) (c : Chan) (s : State) : Keeps s (recordFault f a c s) :=
  Keeps.of_putChan id id

theorem recordIf_keeps (f : Option ChanFault) (a : Nat) (c : Chan) (s : State) : Keeps s (recordIf f a c s) := by
  unfold recordIf
  split
  · exact recordFault_keeps ..
  · exact Keeps.refl s

/-- Of the placeable states none is one with the mask set, and a channel is placed in one of them. -/
theorem masked_of_placeable {st : ChanState} (h : st.placeable = true) : st.masked = false := by
  cases st <;> first | rfl | cases h

theorem placedState_masked (c : Chan) (s : State) : (placedState c s).masked = false := by
  unfold placedState
  split
  · split <;> rfl
  · rfl

theorem placeChan_keeps (b : Bool) (c : Chan) (s : State) : Keeps s (placeChan b c s) := by
  unfold placeChan
  refine Keeps.ite (fun hp => ?_) fun _ => Keeps.refl s
  have h1 : Keeps s (s.putChan c { s.chan c with state := placedState c s }) :=
    Keeps.of_putChan (fun h => h.trans ((masked_of_placeable hp).trans (placedState_masked c s).symm)) id
  exact Keeps.ite (fun _ => h1.trans (recordFault_keeps ..)) fun _ => h1

theorem unmask_keeps (c : Chan) (ch : Channel) (s : State) (h : (s.chan c).tcOwed ≤ 255 → ch.tcOwed ≤ 255) :
    Keeps s (unmask c ch s) := by
  have h1 : Keeps s (s.putChan c { ch with mask := false, state := .waiting }) := Keeps.of_putChan (fun _ => rfl) h
  refine Keeps.trans ?_ (placeChan_keeps true c _)
  exact Keeps.ite (fun _ => h1.trans (Keeps.of_within (startCursor_within c _))) fun _ => h1

theorem Channel.loadCounts_tcOwed (ch : Channel) : ch.loadCounts.tcOwed = ch.tcOwed := by
  unfold Channel.loadCounts
  split <;> rfl

theorem clearMask_keeps (c : Chan) (s : State) : Keeps s (clearMask c s) := by
  unfold clearMask
  dsimp only
  split
  case h_1 => exact causing_keeps (unmask_keeps c _ s id)
  case h_2 => exact causing_keeps (unmask_keeps c _ s (Channel.loadCounts_tcOwed _ ▸ id))
  all_goals exact Keeps.refl s

theorem maskCheck_keeps (s : State) : Keeps s (maskCheck s) := by
  unfold maskCheck
  split
  · exact Keeps.ite (fun _ => answerPlain_keeps _ s) fun _ => Keeps.refl s
  · exact Keeps.ite (fun _ => answerPlain_keeps _ s) fun _ => Keeps.refl s
  · exact Keeps.refl s
  · exact Keeps.refl s

theorem waitingClear_keeps (c : Chan) (s : State) : Keeps s (waitingClear c s) := by
  unfold waitingClear
  split
  · exact Keeps.ite (fun _ => (setWork_keeps _ s).trans (clearMask_keeps c _)) fun _ => Keeps.refl s
  all_goals exact Keeps.refl s

theorem endStopping_keeps (c : Chan) (s : State) : Keeps s (endStopping c s) := by
  unfold endStopping
  split
  case h_1 d hd =>
    refine Keeps.ite (fun _ => Keeps.refl s) fun _ => ?_
    refine Keeps.trans ?_ ((waitingClear_keeps c _).trans (maskCheck_keeps _))
    refine Keeps.of_putChan (fun h => ?_) id
    rw [hd] at h
    cases d <;> exact h
  all_goals exact Keeps.refl s

/-- The flush or the discard with which a channel enters STOPPING (R77) touches no channel record. -/
theorem enterStopping_eq (c : Chan) (d : Dest) (s : State) : ∃ t,
    Within { staging := true, order := true } (s.putChan c { s.chan c with mask := true, state := .stopping d }) t ∧
      enterStopping c d s = endStopping c t := by
  refine ⟨_, ?_, rfl⟩
  refine Within.ite (Within.refl _ _) ?_
  cases (s.chan c).dir
  · exact flushDemand_within c _
  · exact (discardPrefetch_within c _).mono (by decide)
  · exact Within.refl _ _

theorem putChan_putChan (c : Chan) (v w : Channel) (s : State) : (s.putChan c v).putChan c w = s.putChan c w := by
  cases c <;> rfl

/-- A channel enters STOPPING with its mask set, whatever agreed before, and with the owed count it had. -/
theorem enterStopping_keeps (c : Chan) (d : Dest) (v : Channel) (s : State) (h : (s.chan c).tcOwed ≤ 255 → v.tcOwed ≤ 255) :
    Keeps s (enterStopping c d (s.putChan c v)) := by
  obtain ⟨t, hw, ht⟩ := enterStopping_eq c d (s.putChan c v)
  have h1 : Keeps s ((s.putChan c v).putChan c { (s.putChan c v).chan c with mask := true, state := .stopping d }) := by
    rw [putChan_putChan]
    exact Keeps.of_putChan (fun _ => rfl) (by simpa using h)
  rw [ht]
  exact h1.trans ((Keeps.of_within hw).trans (endStopping_keeps c t))

theorem putChan_chan_self (c : Chan) (s : State) : s.putChan c (s.chan c) = s := by cases c <;> rfl

theorem enterStopping_self_keeps (c : Chan) (d : Dest) (s : State) : Keeps s (enterStopping c d s) := by
  have h := enterStopping_keeps c d (s.chan c) s id
  rwa [putChan_chan_self] at h

theorem maskChan_keeps (c : Chan) (s : State) : Keeps s (maskChan c s) := by
  unfold maskChan
  dsimp only
  split
  all_goals first
    | exact Keeps.refl s
    | exact enterStopping_keeps c .idle _ s id
    | exact Keeps.of_putChan (fun _ => rfl) id

theorem stopOnFault_keeps (c : Chan) (s : State) : Keeps s (stopOnFault c s) :=
  Keeps.ite (fun _ => maskChan_keeps c s) fun _ => Keeps.refl s

theorem unitFault_keeps (f : ChanFault) (a : Nat) (c : Chan) (s : State) : Keeps s (unitFault f a c s) :=
  (recordFault_keeps f a c s).trans (stopOnFault_keeps c _)

theorem Channel.countTc_tcOwed_le (ch : Channel) (b : Bool) (h : ch.tcOwed ≤ 255) : (ch.countTc b).tcOwed ≤ 255 := by
  simp only [Channel.countTc]
  split
  · exact h
  · exact Nat.min_le_left ..

theorem Channel.atTerminal_tcOwed_le (ch : Channel) (h : ch.tcOwed ≤ 255) : ch.atTerminal.tcOwed ≤ 255 := by
  unfold Channel.atTerminal
  split
  · exact Channel.countTc_tcOwed_le _ _ h
  · split <;> exact Channel.countTc_tcOwed_le _ _ h

/-- Terminal count leaves mask and state, or sets the mask and stops the channel (R91). -/
theorem Channel.atTerminal_masked (ch : Channel) (h : ch.mask = ch.state.masked) :
    ch.atTerminal.mask = ch.atTerminal.state.masked := by
  unfold Channel.atTerminal
  split
  · exact h
  · split
    · exact h
    · rfl

theorem terminalCount_keeps (c : Chan) (s : State) : Keeps s (terminalCount c s) := by
  have h1 : Keeps s (s.putChan c (s.chan c).atTerminal) :=
    Keeps.of_putChan (Channel.atTerminal_masked _) (Channel.atTerminal_tcOwed_le _)
  unfold terminalCount
  cases (s.chan c).dir
  · exact h1.trans (Keeps.of_within (flushDemand_within c _))
  · exact h1.trans (Keeps.of_within (cursorSync_within c _))
  · exact h1

theorem rotateOrder_keeps (c : Chan) (s : State) : Keeps s (rotateOrder c s) :=
  Keeps.ite (fun _ => ⟨id, fun _ => ⟨c, rfl⟩, id, id, id, id, id, id, id⟩) fun _ => Keeps.refl s

theorem forChans_keeps {f : Chan → State → State} (h : ∀ c s, Keeps s (f c s)) (s : State) : Keeps s (forChans f s) :=
  ((((((h _ _).trans (h _ _)).trans (h _ _)).trans (h _ _)).trans (h _ _)).trans (h _ _)).trans (h _ _)

end Sys2Proof.Machine
end

section
/-! PROOF. What every event keeps: the master access port with its read line, the arbiter, the host path, the interrupt unit, and the ends
of cycles and timers. -/

namespace Sys2Proof.Machine

set_option Elab.async false

/-! ## The read line and the map (R101, R123) -/

/-- Map entries are whole frames, so an address and the line it lies in are in the same ones. -/
theorem mapContains_lineBase (e : Entry) (a : Nat) : mapContains e (lineBase a) = mapContains e a := by
  simp only [mapContains, lineBase, Config.frameBytes, Config.lineBytes]
  congr 1 <;> exact decide_eq_decide.2 (by omega)

theorem lineBase_mod (a : Nat) : lineBase a % Config.lineBytes = 0 := Nat.mul_mod_left ..

/-- What a lookup finds lies in the entry found. -/
theorem lookupMap_found {m : Vector Entry 32} {a e h : Nat} {need : Need} (hl : lookupMap m a need = .found e h) :
    m.toList.findIdx? (fun en => en.valid && mapContains en a) = some e ∧ mapAllows (m.toList.getD e Entry.zero) need = true ∧
      h = mapHost (m.toList.getD e Entry.zero) a ∧ mapContains (m.toList.getD e Entry.zero) a = true := by
  unfold lookupMap at hl
  split at hl
  case h_1 => cases hl
  case h_2 i hi =>
    dsimp only at hl
    split at hl
    case isFalse => cases hl
    case isTrue ha =>
      cases hl
      obtain ⟨hlt, hp, -⟩ := List.findIdx?_eq_some_iff_getElem.1 hi
      have hg : m.toList.getD e Entry.zero = m.toList[e] := by simp [List.getD_eq_getElem?_getD, List.getElem?_eq_getElem hlt]
      rw [hg] at ha ⊢
      exact ⟨hi, ha, rfl, (Bool.and_eq_true_iff.1 hp).2⟩

/-- The line of an address found is found at the same entry, as far below in host memory as in the map. -/
theorem lookupMap_lineBase {m : Vector Entry 32} {a e h : Nat} {need : Need} (hl : lookupMap m a need = .found e h) :
    lookupMap m (lineBase a) need = .found e (h - (a - lineBase a)) := by
  obtain ⟨hi, ha, hh, hc⟩ := lookupMap_found hl
  have hc' := (mapContains_lineBase _ a).trans hc
  simp only [lookupMap, mapContains_lineBase, hi, ha, if_true, Lookup.found.injEq, true_and]
  simp only [mapContains, Bool.and_eq_true, decide_eq_true_eq] at hc'
  have hle : lineBase a ≤ a := Nat.div_mul_le_self ..
  rw [hh]
  simp only [mapHost]
  omega

/-! ## The master access port -/

/-- Everything of the port but its buffer's length, its read line and its fill is free to change. -/
theorem Keeps.of_port {m : MasterPort} {s : State}
    (hb : s.master.buffer.length ≤ Config.masterEntries → m.buffer.length ≤ Config.masterEntries)
    (hr : m.readLine = s.master.readLine) (hf : m.fill = s.master.fill) : Keeps s (s.putMaster m) :=
  Keeps.of_putMaster hb fun ⟨h1, h2⟩ => ⟨fun rl h => h1 rl (hr ▸ h), fun f h => h2 f (hf ▸ h)⟩

theorem masterFault_keeps (k : MasterCause) (a : Nat) (s : State) : Keeps s (masterFault k a s) := Keeps.of_port id rfl rfl

/-- Deciding entries leaves them in the buffer (R122). -/
theorem decideGroup_length (s : State) : (decideGroup s).master.buffer.length = s.master.buffer.length := by
  unfold decideGroup
  split
  · rfl
  · have h := congrArg List.length (List.takeWhile_append_dropWhile (p := MasterEntry.decided) (l := s.master.buffer))
    simp only [List.length_append] at h
    simp only [decideWrite, State.putOrder_master, State.putMaster_master, undecided, List.length_append, List.length_map,
      List.length_take, List.length_drop]
    omega

theorem decideGroup_keeps (s : State) : Keeps s (decideGroup s) := by
  have hl := decideGroup_length s
  unfold decideGroup at hl ⊢
  split
  · exact Keeps.refl s
  · rename_i e es he
    rw [he] at hl
    exact (Keeps.of_port (fun h => hl.trans_le h) rfl rfl).trans (Keeps.of_within (decideWrite_within ..))

theorem decideGroups_keeps (n : Nat) (s : State) : Keeps s (decideGroups n s) := by
  induction n generalizing s with
  | zero => exact Keeps.refl s
  | succ n ih => exact (decideGroup_keeps s).trans (ih _)

theorem decideAll_keeps (s : State) : Keeps s (decideAll s) := decideGroups_keeps ..

theorem masterDecide_keeps (s : State) : Keeps s (masterDecide s) :=
  Keeps.ite (fun _ => decideGroup_keeps s) fun _ => Keeps.refl s

/-- A write posted in a buffer that has room. -/
theorem postWrite_keeps (a : Nat) (bs : List Byte) (e h : Nat) {s : State} (hr : s.master.buffer.length < Config.masterEntries) :
    Keeps s (postWrite a bs e h s) := by
  refine Keeps.trans (Keeps.of_putMaster (fun _ => ?_) fun ⟨h1, h2⟩ => ⟨fun rl hrl => ?_, fun f hf hi => ?_⟩) (masterDecide_keeps _)
  · simpa using hr
  · obtain ⟨rl', hrl', rfl⟩ := Option.map_eq_some_iff.1 hrl
    have := h1 rl' hrl'
    split <;> exact this
  · obtain ⟨f', hf', rfl⟩ := Option.map_eq_some_iff.1 hf
    by_cases hla : lineBase a = f'.addr
    · simp [hla] at hi
    · rw [if_neg hla] at hi ⊢
      exact h2 f' hf' hi

theorem postHeld_keeps (s : State) : Keeps s (postHeld s) := by
  unfold postHeld
  split
  · split
    · refine Keeps.ite (fun h => ?_) fun _ => Keeps.refl s
      exact (Keeps.of_port (m := { s.master with stretched := none }) id rfl rfl).trans (postWrite_keeps _ _ _ _ h)
    · exact Keeps.refl s
  · exact Keeps.refl s

theorem drainMark_keeps (s : State) : Keeps s (drainMark s) := by
  unfold drainMark
  exact Keeps.ite (fun _ => Keeps.refl s) fun _ => (decideAll_keeps s).trans (Keeps.of_port id rfl rfl)

/-- With the line invalid and a fill that is to be ignored nothing is left to agree with the map, whatever the map becomes (R125). -/
theorem LineAgrees.of_invalid {s : State} (hr : s.master.readLine = none) (hf : ∀ f, s.master.fill = some f → f.ignored = true) :
    LineAgrees s :=
  ⟨fun rl h => by simp [hr] at h, fun f h hi => by simp [hf f h] at hi⟩

theorem invalidateLine_agrees (s : State) : LineAgrees (invalidateLine s) := by
  refine LineAgrees.of_invalid rfl fun f hf => ?_
  obtain ⟨f', -, rfl⟩ := Option.map_eq_some_iff.1 hf
  rfl

theorem invalidateLine_keeps (s : State) : Keeps s (invalidateLine s) :=
  Keeps.of_putMaster id fun _ => invalidateLine_agrees s

/-- A fill formed by a lookup of the map as it stands, or to be ignored from the start. -/
theorem formFill_keeps (a e h : Nat) (i : Bool) (s : State) (hl : i = false → lookupMap s.map a .read = .found e h) :
    Keeps s (formFill a e h i s) := by
  refine Keeps.after (Keeps.of_within (formRead_within .fill _))
    (Keeps.of_putMaster id fun _ => ⟨fun rl hr => ?_, fun f hf hi => ?_⟩)
  · cases hr
  cases hf
  exact ⟨lineBase_mod a, lookupMap_lineBase (hl hi)⟩

theorem releaseCycle_keeps (a : Option (List Byte)) (s : State) : Keeps s (releaseCycle a s) := Keeps.of_port id rfl rfl

theorem expireHeld_keeps (s : State) : Keeps s (expireHeld s) := by
  unfold expireHeld
  split
  · exact Keeps.refl s
  · refine Keeps.trans ?_ (masterFault_keeps _ _ _)
    split
    · exact Keeps.of_port id rfl rfl
    · exact releaseCycle_keeps _ s

/-! ## The arbiter -/

theorem beginCycle_keeps (cyc : Cycle) (s : State) : Keeps s (beginCycle cyc s) := Keeps.of_within (beginCycle_within cyc s)

theorem grantHost_keeps (s : State) : Keeps s (grantHost s) := by
  unfold grantHost
  split
  · exact Keeps.refl s
  · exact ((setPhase_keeps _ s).trans (Keeps.of_putArb fun _ => Nat.zero_le _)).trans (beginCycle_keeps _ _)

theorem readyChan_ready {s : State} {c : Chan} (h : readyChan s = some c) : (s.chan c).state = .ready := by
  simpa using List.find?_some h

theorem grantDma_keeps (c : Chan) (s : State) (h : (s.chan c).state = .ready) : Keeps s (grantDma c s) := by
  refine Keeps.ite (fun _ => ?_) fun _ => ?_
  · exact Keeps.after (invalidateLine_keeps _)
      (Keeps.after (Keeps.of_putArb id) (Keeps.of_unmasked (congrArg ChanState.masked h) rfl rfl rfl))
  · exact Keeps.after (beginCycle_keeps _ _)
      (Keeps.after (Keeps.of_putArb id) (Keeps.of_unmasked (congrArg ChanState.masked h) rfl rfl rfl))

theorem grant_keeps (s : State) : Keeps s (grant s) := by
  unfold grant
  refine Keeps.ite (fun _ => Keeps.after (beginCycle_keeps _ _) (Keeps.of_putArb id)) fun _ =>
    Keeps.ite (fun _ => grantHost_keeps s) fun _ => ?_
  split
  · exact grantDma_keeps _ s (readyChan_ready ‹_›)
  · exact Keeps.ite (fun _ => grantHost_keeps s) fun _ => Keeps.refl s

theorem kickBus_keeps (s : State) : Keeps s (kickBus s) := by
  unfold kickBus
  have h := Keeps.of_within (applyClock_within s)
  exact Keeps.ite (fun _ => Keeps.ite (fun _ => h) fun _ => h.trans (grant_keeps _)) fun _ => Keeps.refl s

theorem askBus_keeps (x : Xfer) (s : State) : Keeps s (askBus x s) := by
  refine Keeps.trans ?_ (kickBus_keeps _)
  exact Keeps.trans (t := { s with xfer := some x }) ⟨id, id, id, id, id, id, id, id, id⟩ (Keeps.of_putArb id)

theorem withdrawHost_keeps (s : State) : Keeps s (withdrawHost s) :=
  Keeps.ite (fun _ => Keeps.trans (t := { s with xfer := none }) ⟨id, id, id, id, id, id, id, id, id⟩ (Keeps.of_putArb id))
    fun _ => Keeps.refl s

theorem freeBus_keeps (s : State) : Keeps s (freeBus s) :=
  Keeps.after (Keeps.of_within (putSlot_within _ (s.putArb _))) (Keeps.of_putArb id)

theorem endDmaTenure_keeps (c : Chan) (s : State) : Keeps s (endDmaTenure c s) := by
  have h : Keeps s (rotateOrder c (freeBus (turnAtBoundary s))) :=
    Keeps.after (rotateOrder_keeps c _) (Keeps.after (freeBus_keeps _) (Keeps.of_putArb id))
  unfold endDmaTenure
  dsimp only
  split
  case h_1 => exact h.trans (enterStopping_self_keeps c _ _)
  case h_2 hs =>
    exact h.trans (Keeps.after (placeChan_keeps true c _) (Keeps.of_unmasked (congrArg ChanState.masked hs) rfl rfl rfl))
  all_goals exact h

theorem endMasterTenure_keeps (c : Chan) (s : State) : Keeps s (endMasterTenure c s) := by
  unfold endMasterTenure
  dsimp only
  generalize hu : rotateOrder c _ = u
  have h : Keeps s u := by
    rw [← hu]
    exact Keeps.after (rotateOrder_keeps c _)
      (Keeps.after (freeBus_keeps _) (Keeps.after (Keeps.of_putArb id) (expireHeld_keeps s)))
  split
  case h_1 => exact h.trans (endStopping_keeps c _)
  case h_2 hs =>
    exact h.trans (Keeps.after (placeChan_keeps true c _) (Keeps.of_unmasked (congrArg ChanState.masked hs) rfl rfl rfl))
  all_goals exact h

/-! ## Streams and the host path -/

theorem endStream_keeps (st : Status) (hf : Bool) (s : State) : Keeps s (endStream st hf s) := by
  unfold endStream
  split
  · exact Keeps.refl s
  · exact (((withdrawHost_keeps s).trans (Keeps.of_within (closePiece_within _))).trans
      (Keeps.of_within (putActive_within _ _))).trans (endWith_keeps ..)

theorem endIfWalked_keeps (s : State) : Keeps s (endIfWalked s) := by
  unfold endIfWalked
  split
  · split
    · exact Keeps.ite (fun _ => endStream_keeps _ _ s) fun _ => Keeps.refl s
    · exact Keeps.refl s
  · exact Keeps.refl s

theorem endStep_keeps (x : Xfer) (s : State) : Keeps s (endStep x s) := by
  unfold endStep
  split
  · exact Keeps.refl s
  · rename_i r _
    have h1 := Keeps.of_within (putActive_within (some (countStep r x.moved.length x.firstFault)) s)
    have h2 := Keeps.ite (p := r.isIn = true)
      (fun _ => h1.trans (Keeps.of_within (enterBytes_within r.step x.moved _))) fun _ => h1
    exact Keeps.ite (fun _ => h2.trans (endStream_keeps ..)) fun _ => Keeps.ite (fun _ => h2.trans (endStream_keeps ..)) fun _ =>
      (h2.trans (Keeps.of_within (putActive_within ..))).trans (endIfWalked_keeps _)

theorem finishSlotRequest_keeps (x : Xfer) (s : State) : Keeps s (finishSlotRequest x s) := by
  unfold finishSlotRequest
  split
  · exact endRequest_keeps ..
  · exact endWith_keeps ..

theorem endHostTenure_keeps (x : Xfer) (s : State) : Keeps s (endHostTenure x s) := by
  have h : Keeps s { freeBus s with xfer := none } := (freeBus_keeps s).trans ⟨id, id, id, id, id, id, id, id, id⟩
  exact (Keeps.ite (fun _ => h.trans (endStep_keeps x _)) fun _ => h.trans (finishSlotRequest_keeps x _)).trans (kickBus_keeps _)

theorem continueHost_keeps (x : Xfer) (s : State) : Keeps s (continueHost x s) :=
  Keeps.ite (fun _ => endHostTenure_keeps x s) fun _ =>
    Keeps.trans (t := { s with xfer := some x }) ⟨id, id, id, id, id, id, id, id, id⟩ (beginCycle_keeps _ _)

theorem endHostCycle_keeps (cyc : Cycle) (bs : List Byte) (s : State) : Keeps s (endHostCycle cyc bs s) := by
  unfold endHostCycle
  split
  · exact Keeps.refl s
  · exact (Keeps.of_within (putSlot_within _ s)).trans (continueHost_keeps _ _)

/-! ## The interrupt unit -/

theorem makeDrain_keeps (d : PerChan Bool) (m : Bool) (s : State) : Keeps s (makeDrain d m s) := by
  have h : Keeps s (forChans (fun c x => if d.get c then flushDemand c x else x) s) :=
    forChans_keeps (fun c x => Keeps.ite (fun _ => Keeps.of_within (flushDemand_within c x)) fun _ => Keeps.refl x) s
  exact Keeps.ite (fun _ => h.trans (drainMark_keeps _)) fun _ => h

/-- Letting the candidate or the poll selection go keeps the two apart. -/
theorem dropDelivery_keeps (s : State) : Keeps s (dropDelivery s) := by
  unfold dropDelivery
  split
  · exact Keeps.ite (fun _ => Keeps.refl s) fun _ => Keeps.of_putIrq fun _ => .inl rfl
  · exact Keeps.refl s

theorem makeDrain_irq (d : PerChan Bool) (m : Bool) (s : State) : (makeDrain d m s).irq = s.irq := (makeDrain_within d m s).irq rfl

/-- A poll selects where there is no candidate. -/
theorem Keeps.pollSelect {s t : State} (k : Keeps s t) (h : DeliveryGood s → t.irq.delivery = none) : Keeps s (pollSelect t) := by
  unfold Machine.pollSelect
  split
  · exact (answerPlain_keeps _ t).after k
  · exact ((makeDrain_keeps _ _ t).after k).putIrq fun hg => .inl (by simpa [State.putIrq, makeDrain_irq] using h hg)

theorem repoll_keeps (s : State) : Keeps s (repoll s) := by
  unfold repoll
  split
  · rename_i p hp
    have hn (h : DeliveryGood s) : s.irq.delivery = none := by simpa [hp, DeliveryGood] using h
    exact Keeps.ite (fun _ => Keeps.refl s) fun _ => Keeps.pollSelect (Keeps.of_putIrq fun h => .inl (hn h)) hn
  · refine Keeps.ite (fun h => ?_) fun _ => Keeps.refl s
    have hn : s.irq.delivery = none := by simpa using (Bool.and_eq_true_iff.1 h).2
    exact Keeps.pollSelect (Keeps.of_putIrq id) fun _ => hn

theorem answerPoll_keeps (s : State) : Keeps s (answerPoll s) := by
  unfold answerPoll
  split
  · exact Keeps.ite (fun _ => Keeps.after (endRequest_keeps ..) ((Keeps.of_putLine _ _ s).putIrq fun _ => .inr rfl))
      fun _ => Keeps.refl s
  · exact Keeps.refl s

theorem selectCandidate_keeps (s : State) : Keeps s (selectCandidate s) := by
  unfold selectCandidate
  refine Keeps.ite (fun h => ?_) fun _ => Keeps.refl s
  have hp : s.irq.poll = none := by simp_all
  split
  · exact Keeps.refl s
  · exact (makeDrain_keeps _ _ s).putIrq fun _ => .inr (by simpa [State.putIrq, makeDrain_irq] using hp)

theorem postReady_keeps (s : State) : Keeps s (postReady s) := by
  unfold postReady
  split
  · rename_i d hd
    refine Keeps.ite (fun _ => Keeps.of_putIrq fun h => .inr ?_) fun _ => Keeps.refl s
    simpa [hd, DeliveryGood] using h
  · exact Keeps.refl s

theorem weighLines_keeps (s : State) : Keeps s (weighLines s) :=
  ((((dropDelivery_keeps s).trans (repoll_keeps _)).trans (answerPoll_keeps _)).trans (selectCandidate_keeps _)).trans
    (postReady_keeps _)

/-! ## The ends of cycles -/

theorem countUnit_keeps (s : State) : Keeps s (countUnit s) := Keeps.of_putArb fun _ => Nat.min_le_left ..

theorem performUnit_keeps (c : Chan) (cyc : Cycle) (bs : List Byte) (s : State) : Keeps s (performUnit c cyc bs s) := by
  have h1 := Keeps.of_within (moveUnit_within c bs cyc.addr s)
  unfold performUnit
  generalize moveUnit c bs cyc.addr s = p at h1 ⊢
  have h2 := (recordIf_keeps p.2 cyc.addr c _).after h1
  have h3 : Keeps s ((recordIf p.2 cyc.addr c p.1).putChan c ((recordIf p.2 cyc.addr c p.1).chan c).step) :=
    Keeps.after (Keeps.of_putChan id id) h2
  have h4 := Keeps.ite (p := cyc.tc = true) (fun _ => (terminalCount_keeps c _).after h3) fun _ => h3
  have h5 := Keeps.ite (p := cyc.ready = true) (fun _ => (recordFault_keeps .ready cyc.addr c _).after h4) fun _ => h4
  have h6 := Keeps.ite (p := cyc.check = true) (fun _ => (recordFault_keeps .check cyc.addr c _).after h5) fun _ => h5
  exact Keeps.ite (fun _ => (stopOnFault_keeps c _).after h6) fun _ => h6

theorem continueDma_keeps (c : Chan) (tc : Bool) (s : State) : Keeps s (continueDma c tc s) := by
  refine Keeps.ite (fun _ => Keeps.after (beginCycle_keeps _ _) (Keeps.of_putChan id id)) fun _ => ?_
  exact (kickBus_keeps _).after (endDmaTenure_keeps c s)

theorem endUnitCycle_keeps (c : Chan) (cyc : Cycle) (bs : List Byte) (s : State) : Keeps s (endUnitCycle c cyc bs s) := by
  refine Keeps.ite (fun _ => ?_) fun _ => ?_
  · exact Keeps.after (kickBus_keeps _) (Keeps.after (endDmaTenure_keeps c _) (countUnit_keeps s))
  · exact Keeps.after (continueDma_keeps c cyc.tc _) (Keeps.after (Keeps.of_within (putSlot_within _ _))
      (Keeps.after (countUnit_keeps _) (performUnit_keeps c cyc bs s)))

/-- A refresh record that owes no more than it did, or still no more than it may. -/
theorem Keeps.of_refresh {s : State} {r : Refresh} (h : s.refresh.owed ≤ Config.refreshOwedMax → r.owed ≤ Config.refreshOwedMax) :
    Keeps s { s with refresh := r } :=
  ⟨id, id, id, id, fun k => ⟨k.1, h k.2.1, k.2.2⟩, id, id, id, id⟩

theorem endRefreshCycle_keeps (cyc : Cycle) (s : State) : Keeps s (endRefreshCycle cyc s) := by
  unfold endRefreshCycle
  dsimp only
  have h1 : Keeps s { s with refresh := { s.refresh with row := s.refresh.row + 1, owed := s.refresh.owed - 1 } } :=
    Keeps.of_refresh fun h => (Nat.sub_le _ 1).trans h
  refine Keeps.ite (fun _ => ?_) fun _ => ?_
  · exact Keeps.after (kickBus_keeps _) (Keeps.after (freeBus_keeps _) (Keeps.after (Keeps.of_refresh id)
      (Keeps.after (Keeps.of_within (putSlot_within _ _)) h1)))
  · exact Keeps.after (beginCycle_keeps _ _) (Keeps.after (Keeps.of_within (putSlot_within _ _)) h1)

theorem endCycle_keeps (cyc : Cycle) (d : BusWord) (s : State) : Keeps s (endCycle cyc d s) := by
  unfold endCycle
  split
  · exact endHostCycle_keeps ..
  · exact endUnitCycle_keeps ..
  · exact endRefreshCycle_keeps ..
  · exact Keeps.refl s
  · exact Keeps.refl s

theorem lastClock_keeps (mine : Cycle → Bool) (sense ready : Bool) (d : BusWord) (s : State) :
    Keeps s (lastClock mine sense ready d s) := by
  unfold lastClock
  split
  · exact Keeps.ite (fun _ => Keeps.ite (fun _ => endCycle_keeps ..) fun _ => Keeps.of_within (putSlot_within _ s))
      fun _ => Keeps.refl s
  · exact Keeps.refl s

theorem releaseReady_keeps (d : BusWord) (s : State) : Keeps s (releaseReady d s) := by
  unfold releaseReady
  split
  · exact Keeps.ite (fun _ => endCycle_keeps ..) fun _ => Keeps.refl s
  · exact Keeps.refl s

theorem expireCycle_keeps (cyc : Cycle) (s : State) : Keeps s (expireCycle cyc s) := by
  unfold expireCycle
  dsimp only
  split
  · exact (endCycle_keeps ..).after (Keeps.of_within (faultXfer_within .ready s))
  · exact endCycle_keeps ..
  · exact (endCycle_keeps ..).after (Keeps.of_within (oweSlotFault_within ..))
  · exact Keeps.refl s
  · exact Keeps.refl s

theorem readyExpiry_keeps (s : State) : Keeps s (readyExpiry s) := by
  unfold readyExpiry
  split
  · exact Keeps.ite (fun _ => expireCycle_keeps ..) fun _ => Keeps.refl s
  · exact expireHeld_keeps s

/-! ## The card check line -/

theorem checkHostBetween_keeps (s : State) : Keeps s (checkHostBetween s) := by
  unfold checkHostBetween
  split
  · exact Keeps.refl s
  · exact Keeps.ite (fun _ => endHostTenure_keeps ..) fun _ => ⟨id, id, id, id, id, id, id, id, id⟩

theorem checkUnitBetween_keeps (c : Chan) (a : Nat) (s : State) : Keeps s (checkUnitBetween c a s) := by
  have h := unitFault_keeps .check a c s
  exact Keeps.ite (fun _ => (kickBus_keeps _).after ((endDmaTenure_keeps c _).after h)) fun _ => h

theorem chargeCheck_keeps (b : Bool) (s : State) : Keeps s (chargeCheck b s) := by
  unfold chargeCheck
  dsimp only
  split
  · exact Keeps.ite (fun _ => checkHostBetween_keeps s) fun _ => Keeps.of_within (checkHost_within s)
  · exact Keeps.ite (fun _ => checkUnitBetween_keeps ..) fun _ => Keeps.of_within (markCheck_within s)
  · split
    · exact unitFault_keeps ..
    · exact Keeps.refl s
  · exact Keeps.of_within (oweSlotFault_within ..)
  · exact Keeps.of_within (oweSlotFault_within ..)

theorem checkEdge_keeps (b : Bool) (s : State) : Keeps s (checkEdge b s) :=
  Keeps.ite (fun _ => Keeps.refl s) fun _ => (chargeCheck_keeps b _).after (Keeps.of_within (putSlot_within _ s))

/-! ## Timers -/

theorem refreshExpiry_keeps (s : State) : Keeps s (refreshExpiry s) := by
  unfold refreshExpiry
  dsimp only
  refine Keeps.ite (fun _ => Keeps.ite (fun h => ?_) fun _ => Keeps.ite (fun _ => Keeps.of_refresh id) fun _ => Keeps.of_refresh id)
    fun _ => Keeps.refl s
  exact Keeps.after (kickBus_keeps _) (Keeps.of_refresh fun _ => h)

theorem masterLong_keeps (s : State) : Keeps s (masterLong s) := Keeps.after (Keeps.of_putArb id) (masterFault_keeps _ _ s)

theorem masterHoldExpiry_keeps (s : State) : Keeps s (masterHoldExpiry s) :=
  Keeps.ite (fun _ => Keeps.after (masterLong_keeps _) (Keeps.of_putArb id)) fun _ => Keeps.refl s

theorem ageExpiry_keeps (c : Chan) (s : State) : Keeps s (ageExpiry c s) := Keeps.of_within (ageExpiry_within c s)

end Sys2Proof.Machine
end

section
/-! PROOF. What every event keeps: the commands, one by one, and so every step. -/

namespace Sys2Proof.Machine

set_option Elab.async false

/-! ## The cards -/

theorem requestRise_keeps (c : Chan) (s : State) : Keeps s (requestRise c s) :=
  Keeps.ite (fun _ => Keeps.refl s) fun _ =>
    Keeps.after (kickBus_keeps _) (Keeps.after (placeChan_keeps true c _) ⟨id, id, id, id, id, id, id, id, id⟩)

theorem requestFall_keeps (c : Chan) (s : State) : Keeps s (requestFall c s) := by
  refine Keeps.ite (fun _ => ?_) fun _ => Keeps.refl s
  have h : Keeps s (setDreq c false s) := ⟨id, id, id, id, id, id, id, id, id⟩
  exact Keeps.ite (fun _ => Keeps.after (kickBus_keeps _) ((endMasterTenure_keeps c _).after h))
    fun _ => Keeps.after (kickBus_keeps _) ((placeChan_keeps true c _).after h)

theorem lineRise_keeps (l : Line) (s : State) : Keeps s (lineRise l s) := by
  have h : Keeps s (setIrq l true s) := ⟨id, id, id, id, id, id, id, id, id⟩
  exact Keeps.ite (fun _ => Keeps.refl s) fun _ => Keeps.ite (fun _ => h) fun _ =>
    Keeps.after (weighLines_keeps _) ((Keeps.of_putLine l _ _).after h)

theorem lineFall_keeps (l : Line) (s : State) : Keeps s (lineFall l s) := by
  have h : Keeps s (setIrq l false s) := ⟨id, id, id, id, id, id, id, id, id⟩
  exact Keeps.ite (fun _ => Keeps.ite (fun _ => h) fun _ =>
    Keeps.after (weighLines_keeps _) ((Keeps.of_putLine l _ _).after h)) fun _ => Keeps.refl s

theorem stretch_keeps (k : HeldKind) (a e h : Nat) (s : State) : Keeps s (stretch k a e h s) := Keeps.of_port id rfl rfl

theorem acceptWrite_keeps (a : Nat) (bs : List Byte) (e h : Nat) (s : State) : Keeps s (acceptWrite a bs e h s) :=
  Keeps.ite (fun hr => postWrite_keeps a bs e h hr) fun _ => stretch_keeps ..

theorem noteMaster_keeps (a : Nat) (s : State) : Keeps s (noteMaster a s) := Keeps.of_putArb id

theorem masterWrite_keeps (addr : BitVec 24) (wide : Bool) (data : BusWord) (s : State) : Keeps s (masterWrite addr wide data s) := by
  unfold masterWrite
  refine Keeps.ite (fun _ => ?_) fun _ => Keeps.refl s
  have h := noteMaster_keeps addr.toNat s
  dsimp only
  split
  · exact h
  · exact (masterFault_keeps ..).after h
  · exact (acceptWrite_keeps ..).after h

/-- A read that misses waits for a fill that its own lookup gives. -/
theorem readMiss_keeps (a len e h : Nat) (s : State) (hl : lookupMap s.map a .read = .found e h) : Keeps s (readMiss a len e h s) := by
  have hd := decideAll_keeps s
  have hm : (decideAll s).map = s.map := (decideAll_within s).map rfl
  unfold readMiss
  dsimp only
  split
  · refine Keeps.after (formFill_keeps a e h false _ fun _ => ?_) (Keeps.after (stretch_keeps ..) hd)
    exact (congrArg (lookupMap · a .read) hm).trans hl
  · refine Keeps.ite (fun _ => (stretch_keeps ..).after hd) fun _ => Keeps.after (stretch_keeps ..) (Keeps.after ?_ hd)
    refine Keeps.of_putMaster id fun ⟨h1, _⟩ => ⟨h1, fun f hf hi => ?_⟩
    cases hf
    cases hi

theorem acceptRead_keeps (a len e h : Nat) (s : State) (hl : lookupMap s.map a .read = .found e h) : Keeps s (acceptRead a len e h s) := by
  unfold acceptRead
  split
  · exact Keeps.of_port id rfl rfl
  · exact readMiss_keeps a len e h s hl

theorem masterRead_keeps (addr : BitVec 24) (wide : Bool) (s : State) : Keeps s (masterRead addr wide s) := by
  unfold masterRead
  refine Keeps.ite (fun _ => ?_) fun _ => Keeps.refl s
  have h := noteMaster_keeps addr.toNat s
  dsimp only
  split
  · exact h
  · exact Keeps.after (masterFault_keeps ..) (Keeps.after (Keeps.of_port id rfl rfl) h)
  · exact Keeps.after (acceptRead_keeps _ _ _ _ _ ‹_›) h

/-! ## Requests to channels -/

theorem startCursor_keeps (c : Chan) (s : State) : Keeps s (startCursor c s) := Keeps.of_within (startCursor_within c s)

theorem channelProgram_keeps (r : Record) (s : State) : Keeps s (channelProgram r s) := by
  unfold channelProgram
  split
  · refine Keeps.ite (fun _ => ?_) fun _ => answerPlain_keeps _ s
    exact Keeps.after (answerPlain_keeps ..) (Keeps.after (startCursor_keeps _ _)
      (Keeps.of_putChan (fun _ => rfl) fun _ => Nat.zero_le _))
  all_goals exact answerPlain_keeps _ s

theorem holdNext_keeps (c : Chan) (b : Block) (s : State) : Keeps s (holdNext c b s) := by
  have h : Keeps s (s.putChan c { s.chan c with nextBlock := some b }) := Keeps.of_putChan id id
  exact Keeps.after (placeChan_keeps false c _) (Keeps.ite (fun _ => (Keeps.of_within (cursorNext_within ..)).after h) fun _ => h)

theorem channelNext_keeps (r : Record) (s : State) : Keeps s (channelNext r s) := by
  unfold channelNext
  split
  · exact Keeps.ite (fun _ => answerPlain_keeps _ s) fun _ => Keeps.ite (fun _ => answerPlain_keeps _ s) fun _ =>
      (answerPlain_keeps ..).after (holdNext_keeps ..)
  all_goals exact answerPlain_keeps _ s

theorem channelMaskSet_keeps (r : Record) (s : State) : Keeps s (channelMaskSet r s) := by
  refine Keeps.ite (fun _ => answerPlain_keeps _ s) fun _ => ?_
  exact Keeps.after (maskCheck_keeps _) (Keeps.after (setWork_keeps _ _)
    (forChans_keeps (fun c x => Keeps.ite (fun _ => maskChan_keeps c x) fun _ => Keeps.refl x) s))

theorem channelMaskClear_keeps (r : Record) (s : State) : Keeps s (channelMaskClear r s) := by
  refine Keeps.ite (fun _ => answerPlain_keeps _ s) fun _ => ?_
  exact Keeps.after (kickBus_keeps _) (Keeps.after (maskCheck_keeps _) (Keeps.after (setWork_keeps _ _)
    (forChans_keeps (fun c x => Keeps.ite (fun _ => clearMask_keeps c x) fun _ => Keeps.refl x) s)))

theorem setSoft_keeps (on : Bool) (c : Chan) (s : State) : Keeps s (setSoft on c s) :=
  causing_keeps (Keeps.after (placeChan_keeps true c _) (Keeps.of_putChan id id))

theorem channelRequest_keeps (on : Bool) (r : Record) (s : State) : Keeps s (channelRequest on r s) := by
  unfold channelRequest
  split
  · exact answerPlain_keeps _ s
  · exact Keeps.ite (fun _ => answerPlain_keeps _ s) fun _ =>
      Keeps.after (answerPlain_keeps ..) (Keeps.after (kickBus_keeps _) (setSoft_keeps ..))

theorem channelStatus_keeps (r : Record) (s : State) : Keeps s (channelStatus r s) := by
  unfold channelStatus
  split
  · exact answerPlain_keeps _ s
  · exact Keeps.after (endRequest_keeps ..) (Keeps.ite (fun _ => Keeps.of_putChan id id) fun _ => Keeps.refl s)

/-! ## The return writer -/

/-- One record more in a ring that is not full (R162). -/
theorem uncredited_succ_le (r : ReturnWriter) : (r.w + 1 - r.c).toNat ≤ uncredited r + 1 := by
  have h : r.w + 1 - r.c = (r.w - r.c) + 1 := by ring
  rw [h, BitVec.toNat_add]
  exact Nat.mod_le ..

theorem putRecord_keeps (r : Return) {s : State} (h : canWrite s = true) : Keeps s (putRecord r s) := by
  rw [putRecord_eq]
  refine ⟨id, id, id, id, id, fun hg => ⟨hg.1, ?_⟩, id, id, id⟩
  have hlt : uncredited s.ret < s.ret.size := by simpa using (Bool.and_eq_true_iff.1 h).2
  exact (uncredited_succ_le s.ret).trans hlt

theorem posted_keeps (l : Line) (s : State) : Keeps s (posted l s) :=
  Keeps.after (weighLines_keeps _) ((Keeps.of_putLine l _ s).putIrq fun _ => .inl rfl)

theorem told_keeps (src : Source) (s : State) : Keeps s (src.told s) := by
  cases src
  case response => exact retire_keeps s
  case control =>
    refine Keeps.of_putQueue fun ⟨h1, h2, _, h4⟩ => ⟨?_, ?_, fun ht => ?_, ?_⟩
    · simpa [State.putQueue, Queue.controlWritten] using h1
    · simpa [State.putQueue, Queue.controlWritten] using h2.trans' (Nat.sub_le _ 1)
    · simp [State.putQueue, Queue.controlWritten] at ht
    · simpa [State.putQueue, Queue.controlWritten] using h4
  case post => exact posted_keeps ..
  case chanFault => exact Keeps.of_putChan id id
  case chanEnd => exact Keeps.of_putChan id fun _ => Nat.zero_le _
  case masterFault => exact Keeps.of_port id rfl rfl
  case slotFault => exact Keeps.of_within (putSlot_within _ s)
  case refreshLate => exact Keeps.of_refresh id
  case intakeFault => exact ⟨id, id, id, id, fun h => ⟨h.1, h.2.1, Nat.zero_le _, h.2.2.2⟩, id, id, id, id⟩

theorem writeNext_keeps (s : State) : Keeps s (writeNext s) := by
  unfold writeNext
  refine Keeps.ite (fun h => ?_) fun _ => Keeps.refl s
  split
  · exact (told_keeps ..).after (putRecord_keeps _ h)
  · exact Keeps.refl s

/-! ## Intake -/

theorem discard_keeps (k : DiscardCause) (s : State) : Keeps s (discard k s) :=
  ⟨id, id, id, id, fun h => ⟨h.1, h.2.1, Nat.min_le_left .., h.2.2.2⟩, id, id, id, id⟩

theorem malformed_keeps (o : BitVec 12) (es : List Bool) (s : State) : Keeps s (malformed o es s) :=
  Keeps.ite (fun _ => discard_keeps _ s) fun _ => Keeps.refl s

theorem unknownKind_keeps (k : Byte) (s : State) : Keeps s (unknownKind k s) :=
  Keeps.ite (fun _ => Keeps.refl s) fun _ => discard_keeps _ s

theorem appendRecord_keeps (r : Record) (s : State) : Keeps s (appendRecord r s) := by
  refine Keeps.ite (fun h => ?_) fun _ => discard_keeps _ s
  refine Keeps.after (takeHead_keeps _) (Keeps.of_putQueue fun ⟨_, h2, h3, h4⟩ => ⟨?_, h2, h3, fun e he => ?_⟩)
  · simpa [State.putQueue] using h
  · simp [State.putQueue, List.head?_append, h4 e he]

theorem ringSet_keeps (tag : Byte) (base : BitVec 64) (n : Nat) (s : State) : Keeps s (ringSet tag base n s) := by
  rw [ringSet_eq]
  refine ⟨id, id, id, id, id, fun _ => ⟨clampSize_mem n, ?_⟩, id, id, id⟩
  have h64 := le_of_mem_ringSizes (clampSize_mem n)
  show (1 - 0 : BitVec 32).toNat ≤ clampSize n
  exact (show 1 ≤ 64 by decide).trans h64

/-- C rises by no more than there is to credit (R164). -/
theorem uncredited_credit (number : Nat) (r : ReturnWriter) :
    (r.w - (r.c + BitVec.ofNat 32 (creditRise number r))).toNat = uncredited r - creditRise number r := by
  have hle : creditRise number r ≤ uncredited r := Nat.min_le_right ..
  have hlt : uncredited r < 2 ^ 32 := (r.w - r.c).isLt
  have h : r.w - (r.c + BitVec.ofNat 32 (creditRise number r)) = (r.w - r.c) - BitVec.ofNat 32 (creditRise number r) := by ring
  have hn : (BitVec.ofNat 32 (creditRise number r)).toNat = creditRise number r := by
    rw [BitVec.toNat_ofNat]
    exact Nat.mod_eq_of_lt (hle.trans_lt hlt)
  rw [h, BitVec.toNat_sub_of_le (BitVec.le_def.2 (by rw [hn]; exact hle)), hn, uncredited]

theorem armNotice_keeps (s : State) : Keeps s (armNotice s) := by
  unfold armNotice
  refine Keeps.ite (fun _ => ?_) fun _ => ⟨id, id, id, id, id, id, id, id, id⟩
  rw [sendMsi_eq]
  exact ⟨id, id, id, id, id, id, id, id, id⟩

theorem ringCredit_keeps (tag : Byte) (wants arm clear : Bool) (number : Nat) (s : State) :
    Keeps s (ringCredit tag wants arm clear number s) := by
  have h1 : Keeps s { s with ret := { s.ret with c := s.ret.c + BitVec.ofNat 32 (creditRise number s.ret) } } :=
    ⟨id, id, id, id, id, fun h => ⟨h.1, (uncredited_credit number s.ret).trans_le ((Nat.sub_le _ _).trans h.2)⟩, id, id, id⟩
  have h2 := Keeps.ite (p := arm = true) (fun _ => (armNotice_keeps _).after h1) fun _ => h1
  have hi (t : State) : Keeps t { t with intake := { t.intake with fault := false } } := ⟨id, id, id, id, id, id, id, id, id⟩
  have h3 := Keeps.ite (p := clear = true) (fun _ => (hi _).after h2) fun _ => h2
  refine Keeps.ite (fun _ => h3.trans ?_) fun _ => h3
  exact Keeps.ite (fun _ => Keeps.refl _) fun hf => pushControl_keeps _ (by simpa using hf)

/-- Taking note that a moment is over, with what else of the queue no invariant speaks of. -/
theorem settled_keeps {q : Queue} {s : State} (hr : q.records = s.queue.records) (hc : q.controls = s.queue.controls)
    (ht : q.tied = s.queue.tied) (hp : q.place = s.queue.place) (he : q.exec = s.queue.exec) : Keeps s (s.putQueue q) :=
  Keeps.of_putQueue fun h => h.of_place hr (by rw [hc]) (by rw [ht, hp]; exact id) (by rw [he])

theorem answerControl_keeps (wants : Bool) (k tag : Byte) (ready : Bool) {s : State} (h : (wants && controlsFull s) = false) :
    Keeps s (answerControl wants k tag ready s) := by
  refine Keeps.ite (fun hw => pushControl_keeps _ ?_) fun _ => Keeps.refl s
  simpa [hw] using h

theorem queueHalt_keeps (tag : Byte) (wants : Bool) (s : State) : Keeps s (queueHalt tag wants s) := by
  refine Keeps.ite (fun _ => discard_keeps _ s) fun h => ?_
  have hf : (wants && controlsFull s) = false := by simpa using h
  exact Keeps.ite
    (fun _ => Keeps.after (answerControl_keeps _ _ _ _ (by exact hf)) (settled_keeps rfl rfl rfl rfl rfl))
    fun _ => Keeps.after (answerControl_keeps _ _ _ _ (by exact hf)) (settled_keeps rfl rfl rfl rfl rfl)

theorem queueResume_keeps (tag : Byte) (wants : Bool) (s : State) : Keeps s (queueResume tag wants s) := by
  refine Keeps.ite (fun _ => discard_keeps _ s) fun h => ?_
  have hf : (wants && controlsFull s) = false := by simpa using h
  exact Keeps.after (takeHead_keeps _)
    (Keeps.after (answerControl_keeps _ _ _ _ (by exact hf)) (settled_keeps rfl rfl rfl rfl rfl))

theorem abortIdle_keeps (tag : Byte) (s : State) (h : controlsFull s = false) : Keeps s (abortIdle tag s) := by
  have hw : (withdrawHost s).queue = s.queue := (withdrawHost_within s).queue rfl
  refine Keeps.after (Keeps.of_putQueue fun ⟨_, _, h3, _⟩ => ⟨?_, ?_, fun ht => ?_, ?_⟩)
    (Keeps.after (Keeps.of_within (putActive_within none _)) (withdrawHost_keeps s))
  · simp [State.putQueue]
  · simp only [controlsFull, decide_eq_false_iff_not, not_le] at h
    simpa [State.putQueue, hw] using h
  · exact claimPlace_of_control (h3 (by simpa [State.putQueue, Queue.settled] using ht))
  · simp [State.putQueue]

theorem abortBehind_keeps (tag : Byte) (e : Exec) (s : State) (h : controlsFull s = false) : Keeps s (abortBehind tag e s) := by
  refine Keeps.after (pushControl_keeps _ (by exact h)) (Keeps.of_putQueue fun ⟨h1, h2, h3, h4⟩ => ⟨?_, h2, h3, fun e he => ?_⟩)
  · simpa [State.putQueue] using .inr h1
  · simpa [State.putQueue, List.head?_take] using h4 e he

theorem abortInFlight_keeps (k : ReqKind) (s : State) : Keeps s (abortInFlight k s) := by
  have hs : Keeps s (abortStream s) :=
    Keeps.ite (fun _ => ⟨id, id, id, id, id, id, id, id, id⟩) fun _ => endStream_keeps ..
  cases k
  case streamIn => exact hs
  case streamOut => exact hs
  case fence =>
    unfold abortInFlight abortFence
    dsimp only
    split
    · exact endRequest_keeps ..
    all_goals exact Keeps.refl s
  case linePoll =>
    exact Keeps.after (weighLines_keeps _) (Keeps.after (answerPlain_keeps ..) (Keeps.of_putIrq fun _ => .inr rfl))
  all_goals exact Keeps.refl s

theorem queueAbort_keeps (tag : Byte) (s : State) : Keeps s (queueAbort tag s) := by
  unfold queueAbort
  refine Keeps.ite (fun _ => discard_keeps _ s) fun h => ?_
  have hf : controlsFull s = false := by simpa using h
  split
  · exact abortIdle_keeps tag s hf
  · exact Keeps.ite (fun _ => abortIdle_keeps tag s hf) fun _ => Keeps.ite (fun _ => abortBehind_keeps tag _ s hf) fun _ =>
      (abortInFlight_keeps _ _).after (abortBehind_keeps tag _ s hf)

/-! ## Requests to lines -/

theorem lineSet_keeps (r : Record) (s : State) : Keeps s (lineSet r s) := by
  unfold lineSet
  split
  · exact answerPlain_keeps _ s
  · exact Keeps.ite (fun _ => Keeps.after (answerPlain_keeps ..)
      (causing_keeps (Keeps.after (weighLines_keeps _) (Keeps.of_putLine ..)))) fun _ => answerPlain_keeps _ s

theorem lineMask_keeps (on : Bool) (r : Record) (s : State) : Keeps s (lineMask on r s) :=
  Keeps.ite (fun _ => Keeps.after (answerPlain_keeps ..)
    (causing_keeps (Keeps.after (weighLines_keeps _) (Keeps.of_putIrq id)))) fun _ => answerPlain_keeps _ s

/-- A settings entry in range. -/
theorem Keeps.of_settings {s : State} {e : Entry} (h : SettingsGood s → settingsInRange e = true) : Keeps s { s with settings := e } :=
  ⟨id, id, id, id, id, id, id, h, id⟩

/-- A field of a word, as the bits it is. -/
theorem field_eq_extract (w : Word) (lo len : Nat) : field w lo len = (w.extractLsb' lo len).toNat := by
  simp [field, BitVec.extractLsb'_toNat, Nat.shiftRight_eq_div_pow]

theorem setTopCode_putTop (e : Entry) (l : Line) : setTopCode (putTop e l) = l.num := by
  have h : ((putTop e l).w2.extractLsb' 0 8) = BitVec.ofNat 8 l.num := by
    ext i hi
    interval_cases i <;> simp [putTop, mergeWord] <;> cases l <;> rfl
  rw [setTopCode, field_eq_extract, h]
  cases l <;> rfl

theorem setNestCode_putTop (e : Entry) (l : Line) : setNestCode (putTop e l) = setNestCode e := by
  have h : ((putTop e l).w2.extractLsb' 8 2) = e.w2.extractLsb' 8 2 := by
    ext i hi
    interval_cases i <;> simp [putTop, mergeWord]
  rw [setNestCode, setNestCode, field_eq_extract, h, ← field_eq_extract]

theorem clampTop_num (l : Line) : clampTop l.num = l.num := by cases l <;> rfl

/-- Another priority top leaves every settings field in its range (R143, R171). -/
theorem settingsInRange_putTop {e : Entry} (l : Line) (h : settingsInRange e = true) : settingsInRange (putTop e l) = true := by
  simp only [settingsInRange, setTopCode_putTop, setNestCode_putTop, clampTop_num] at h ⊢
  simp only [Bool.and_eq_true] at h ⊢
  exact ⟨⟨h.1.1, by simp⟩, h.2⟩

theorem endService_keeps (l : Line) (rot : Bool) (s : State) : Keeps s (endService l rot s) :=
  have h := Keeps.of_putLine l { s.lineRec l with inService := false } s
  Keeps.ite (fun _ => Keeps.after (Keeps.of_settings (settingsInRange_putTop _)) h) fun _ => h

theorem endLine_keeps (l : Line) (rot : Bool) (s : State) : Keeps s (endLine l rot s) :=
  Keeps.ite (fun _ => Keeps.after (answerPlain_keeps ..)
    (causing_keeps (Keeps.after (weighLines_keeps _) (endService_keeps l rot s)))) fun _ => answerPlain_keeps _ s

theorem lineEndSpecific_keeps (r : Record) (s : State) : Keeps s (lineEndSpecific r s) := by
  unfold lineEndSpecific
  split
  · exact answerPlain_keeps _ s
  · exact endLine_keeps ..

theorem lineEndNonSpecific_keeps (r : Record) (s : State) : Keeps s (lineEndNonSpecific r s) := by
  unfold lineEndNonSpecific
  split
  · exact answerPlain_keeps _ s
  · exact endLine_keeps ..

theorem linePoll_keeps (r : Record) (s : State) : Keeps s (linePoll r s) :=
  Keeps.after (weighLines_keeps _) (Keeps.ite (fun _ => Keeps.of_putIrq id)
    fun h => (Keeps.refl s).pollSelect fun _ => by simpa using h)

/-! ## Slot requests, streams and FENCE -/

theorem slotRequest_keeps (sp : Space) (rd : Bool) (r : Record) (s : State) : Keeps s (slotRequest sp rd r s) := by
  unfold slotRequest
  refine Keeps.ite (fun _ => answerPlain_keeps _ s) fun _ => Keeps.ite (fun _ => answerPlain_keeps _ s) fun _ => ?_
  split
  · exact answerPlain_keeps _ s
  · exact Keeps.ite (fun _ => answerPlain_keeps _ s) fun _ => Keeps.ite (fun _ => endRequest_keeps ..) fun _ =>
      (askBus_keeps _ _).after (setPhase_keeps _ s)

theorem startStream_keeps (isIn : Bool) (e : Entry) (r : Record) (s : State) : Keeps s (startStream isIn e r s) := by
  have h : Keeps s ((setPhase .waiting s).putActive (some (prepareStep s (newStream isIn e r)))) :=
    Keeps.after (Keeps.of_within (putActive_within ..)) (setPhase_keeps _ s)
  exact Keeps.ite (fun _ => h) fun _ => (Keeps.of_within (formStreamRead_within _)).after h

theorem takeStream_keeps (isIn : Bool) (r : Record) (s : State) : Keeps s (takeStream isIn r s) := by
  unfold takeStream
  refine Keeps.ite (fun _ => answerPlain_keeps _ s) fun _ => Keeps.ite (fun _ => answerPlain_keeps _ s) fun _ => ?_
  split
  · exact answerPlain_keeps _ s
  · exact Keeps.ite (fun _ => answerPlain_keeps _ s) fun _ => Keeps.ite (fun _ => endRequest_keeps ..) fun _ =>
      Keeps.ite (fun _ => endRequest_keeps ..) fun _ => startStream_keeps ..

theorem fenceCheck_keeps (s : State) : Keeps s (fenceCheck s) := by
  unfold fenceCheck
  split
  · exact Keeps.ite (fun _ => endRequest_keeps ..) fun _ => Keeps.refl s
  all_goals exact Keeps.refl s

theorem fence_keeps (r : Record) (s : State) : Keeps s (fence r s) :=
  Keeps.ite (fun _ => answerPlain_keeps _ s) fun _ =>
    Keeps.after (fenceCheck_keeps _) (Keeps.after (setWork_keeps _ _) (makeDrain_keeps ..))

/-! ## The host side of the data paths -/

/-- Bytes put in host memory leave it in canonical form (R103). -/
theorem hostTakes_keeps (src : WriteSource) (a : Nat) (bs : List Byte) (s : State) : Keeps s (hostTakes src a bs s) := by
  cases src
  case msi => exact ⟨id, id, id, id, id, id, id, id, id⟩
  all_goals exact ⟨id, id, id, id, id, id, id, id, fun h => ⟨memWf_writeBytes _ a bs h.1, h.2⟩⟩

theorem sourceIssued_keeps (src : WriteSource) (k : Nat) (s : State) : Keeps s (sourceIssued src k s) := by
  cases src
  case run c =>
    exact Keeps.after (placeChan_keeps true c _) (Keeps.after (endStopping_keeps c _) (Keeps.after (tallyWaits_keeps _ _)
      (Keeps.of_within (putStage_within ..))))
  case master n =>
    refine Keeps.after (masterDecide_keeps _) (Keeps.after (postHeld_keeps _) (Keeps.after (tallyWaits_keeps _ _)
      (Keeps.of_port (fun h => ?_) rfl rfl)))
    exact (List.length_drop ▸ Nat.sub_le ..).trans h
  all_goals exact Keeps.refl s

theorem issueWrite_keeps (s : State) : Keeps s (issueWrite s) := by
  unfold issueWrite
  split
  · refine Keeps.after (kickBus_keeps _) ?_
    refine Keeps.after (inChannelOrder_keeps ?_) (Keeps.after (hostTakes_keeps ..) (Keeps.of_within (putOrder_within ..)))
    exact Keeps.after (weighLines_keeps _) (Keeps.after (fenceCheck_keeps _) (sourceIssued_keeps ..))
  all_goals exact Keeps.refl s

theorem addRead_keeps (c : Chan) (k : Chunk) (s : State) : Keeps s (addRead c k s) := Keeps.of_within (putStage_within ..)

theorem fillPrefetch_keeps (c : Chan) (l n : Nat) (f : ChanFault) (s : State) : Keeps s (fillPrefetch c l n f s) :=
  Keeps.after (kickBus_keeps _) (Keeps.after (placeChan_keeps true c _) (Keeps.after (unitFault_keeps f l c _) (addRead_keeps ..)))

theorem prefetchForm_keeps (c : Chan) (s : State) : Keeps s (prefetchForm c s) := by
  unfold prefetchForm
  split
  · exact Keeps.refl s
  · exact Keeps.after (Keeps.of_within (formRead_within ..)) (Keeps.after (addRead_keeps ..) (Keeps.of_within (putStage_within ..)))
  · exact fillPrefetch_keeps ..
  · exact fillPrefetch_keeps ..

theorem placeRead_keeps (c : Chan) (id : Nat) (bs : List Byte) (s : State) : Keeps s (placeRead c id bs s) :=
  Keeps.of_within (putStage_within ..)

theorem prefetchComplete_keeps (c : Chan) (id : Nat) (r : ReadResult) (s : State) : Keeps s (prefetchComplete c id r s) := by
  unfold prefetchComplete
  split
  · exact Keeps.ite (fun _ => Keeps.after (kickBus_keeps _) (Keeps.after (placeChan_keeps true c _) (placeRead_keeps ..)))
      fun _ => Keeps.refl s
  · exact Keeps.after (kickBus_keeps _) (Keeps.after (placeChan_keeps true c _) (Keeps.after (unitFault_keeps ..) (placeRead_keeps ..)))
  all_goals exact Keeps.refl s

theorem answerHeld_keeps (f : Fill) (s : State) : Keeps s (answerHeld f s) := by
  unfold answerHeld
  split
  · exact Keeps.refl s
  · split
    · exact Keeps.refl s
    · exact Keeps.ite (fun _ => releaseCycle_keeps ..) fun _ => Keeps.refl s

/-- A fill that goes leaves the read line as it was. -/
theorem dropFill_keeps (s : State) : Keeps s (s.putMaster { s.master with fill := none }) :=
  Keeps.of_putMaster id fun ⟨h1, _⟩ => ⟨h1, fun f hf => by cases hf⟩

theorem fillError_keeps (f : Fill) (s : State) : Keeps s (fillError f s) := by
  unfold fillError
  dsimp only
  split
  · exact dropFill_keeps s
  · split
    · exact dropFill_keeps s
    · exact Keeps.ite (fun _ => Keeps.after (masterFault_keeps ..) (Keeps.after (releaseCycle_keeps ..) (dropFill_keeps s)))
        fun _ => dropFill_keeps s

theorem fillIgnored_keeps (s : State) : Keeps s (fillIgnored s) := by
  unfold fillIgnored
  dsimp only
  split
  · exact dropFill_keeps s
  · rename_i x _
    split
    · exact dropFill_keeps s
    · refine Keeps.ite (fun _ => ?_) fun _ => dropFill_keeps s
      refine Keeps.after (formFill_keeps _ _ _ _ _ fun hi => ?_) (Keeps.after (Keeps.of_port id rfl rfl) (dropFill_keeps s))
      simpa [mapStands] using hi

theorem fillComplete_keeps (r : ReadResult) (s : State) : Keeps s (fillComplete r s) := by
  unfold fillComplete
  split
  · exact Keeps.refl s
  · rename_i f hf
    refine Keeps.ite (fun _ => Keeps.refl s) fun _ => Keeps.ite (fun _ => fillIgnored_keeps s) fun hi => ?_
    split
    · exact fillError_keeps f s
    · refine Keeps.ite (fun _ => ?_) fun _ => Keeps.refl s
      refine Keeps.after (answerHeld_keeps f _) (Keeps.of_putMaster id fun ⟨_, h2⟩ => ⟨fun rl hr => ?_, fun f' hf' => by cases hf'⟩)
      cases hr
      exact h2 f hf (by simpa using hi)

theorem streamStep_keeps (s : State) : Keeps s (streamStep s) := by
  unfold streamStep
  split
  · exact Keeps.refl s
  · refine Keeps.ite (fun _ => ?_) fun _ => Keeps.refl s
    split
    · exact askBus_keeps ..
    · exact Keeps.refl s

theorem streamForm_keeps (s : State) : Keeps s (streamForm s) :=
  Keeps.ite (fun _ => (endIfWalked_keeps _).after (Keeps.of_within (formStreamRead_within s))) fun _ => Keeps.refl s

theorem streamComplete_keeps (id : Nat) (r : ReadResult) (s : State) : Keeps s (streamComplete id r s) := by
  unfold streamComplete
  split
  · exact Keeps.ite (fun _ => Keeps.of_within (putActive_within ..)) fun _ => Keeps.refl s
  · exact Keeps.after (endIfWalked_keeps _) (Keeps.of_within (putActive_within ..))
  all_goals exact Keeps.refl s

end Sys2Proof.Machine
end

section
/-! PROOF. What every event keeps: table writes and the settings entry, the resets, one microsecond, and so every step (R23, R70, R82, R100,
R130, R149, R161, R162, R171). -/

namespace Sys2Proof.Machine

set_option Elab.async false

/-! ## Tables (R23, R100, R149) -/

/-- An entry put in a table stands there beside those that were there. -/
theorem mem_setIfInBounds {n i : Nat} {v : Vector Entry n} {e x : Entry} (h : x ∈ (v.setIfInBounds i e).toList) :
    x ∈ v.toList ∨ x = e := by
  rw [Vector.toList_setIfInBounds] at h
  exact List.mem_or_eq_of_mem_set h

theorem mem_clearEntries {n i : Nat} {all : Bool} {v : Vector Entry n} {x : Entry} (h : x ∈ (clearEntries all i v).toList) :
    x ∈ v.toList ∨ x = Entry.zero := by
  unfold clearEntries at h
  split at h
  · exact .inr (List.eq_of_mem_replicate (by simpa using h))
  · exact mem_setIfInBounds h

theorem Keeps.of_windows {s : State} {v : Vector Entry 32}
    (h : ∀ x, x ∈ v.toList → x ∈ s.windows.toList ∨ winAccepted x = true) : Keeps s { s with windows := v } :=
  ⟨id, id, id, id, id, id, fun ⟨h1, h2⟩ => ⟨fun x hx => (h x hx).elim (h1 x) id, h2⟩, id, id⟩

theorem Keeps.of_segments {s : State} {v : Vector Entry 64}
    (h : ∀ x, x ∈ v.toList → x ∈ s.segments.toList ∨ segAccepted x = true) : Keeps s { s with segments := v } :=
  ⟨id, id, id, id, id, id, fun ⟨h1, h2, h3⟩ => ⟨h1, h2, fun x hx => (h x hx).elim (h3 x) id⟩, id, id⟩

/-- A map that changes under an invalid line (R125). -/
theorem invalidateLine_map_keeps {s : State} {v : Vector Entry 32}
    (h : ∀ x, x ∈ v.toList → x ∈ s.map.toList ∨ mapAccepted x = true) : Keeps s { invalidateLine s with map := v } := by
  refine ⟨id, id, id, id, id, id, fun ⟨h1, h2, h3⟩ => ⟨h1, fun x hx => (h x hx).elim (h2 x) id, h3⟩, id, fun ⟨h1, h2, _⟩ => ⟨h1, h2, ?_⟩⟩
  refine LineAgrees.of_invalid rfl fun f hf => ?_
  obtain ⟨f', -, rfl⟩ := Option.map_eq_some_iff.1 hf
  rfl

theorem tableWriteWindow_keeps (r : Record) (s : State) : Keeps s (tableWriteWindow r s) := by
  refine Keeps.ite (fun _ => Keeps.ite (fun ha => ?_) fun _ => answerPlain_keeps _ s) fun _ => answerPlain_keeps _ s
  refine Keeps.after (answerPlain_keeps ..) (Keeps.of_windows fun x hx => ?_)
  exact (mem_setIfInBounds hx).imp_right (by rintro rfl; exact ha)

theorem tableWriteMap_keeps (r : Record) (s : State) : Keeps s (tableWriteMap r s) := by
  have h := invalidateLine_keeps s
  refine Keeps.ite (fun _ => Keeps.ite (fun ha => ?_) fun _ => (answerPlain_keeps ..).after h) fun _ => (answerPlain_keeps ..).after h
  refine Keeps.after (answerPlain_keeps ..) (invalidateLine_map_keeps fun x hx => ?_)
  exact (mem_setIfInBounds hx).imp_right (by rintro rfl; exact ha)

theorem tableWriteSegment_keeps (r : Record) (s : State) : Keeps s (tableWriteSegment r s) := by
  refine Keeps.ite (fun _ => Keeps.ite (fun ha => ?_) fun _ => answerPlain_keeps _ s) fun _ => answerPlain_keeps _ s
  refine Keeps.after (answerPlain_keeps ..) (Keeps.of_segments fun x hx => ?_)
  exact (mem_setIfInBounds hx).imp_right (by rintro rfl; exact ha)

/-! ## The settings entry (R171) -/

section
variable {clock ready period age tenure hold top nest : Nat} {rot : Bool}

/-- A word packed from fields that fit is the sum of their places. -/
theorem packed_toNat {n : Nat} (h : n < 2 ^ 32) : (BitVec.ofNat 32 n).toNat = n := by
  rw [BitVec.toNat_ofNat]
  exact Nat.mod_eq_of_lt h

theorem packSettings_w0 (hc : clock < 4) (hr : ready < 64) (hp : period < 64) (ha : age < 256) :
    setClockCode (packSettings clock ready period age tenure hold rot top nest) = clock ∧
      setReadyLimit (packSettings clock ready period age tenure hold rot top nest) = ready ∧
      setRefreshPeriod (packSettings clock ready period age tenure hold rot top nest) = period ∧
      setAgeCode (packSettings clock ready period age tenure hold rot top nest) = age := by
  simp only [setClockCode, setReadyLimit, setRefreshPeriod, setAgeCode, field, packSettings]
  rw [packed_toNat (by omega)]
  omega

theorem packSettings_w1 (ht : tenure < 256) (hh : hold < 256) :
    setTenureLimit (packSettings clock ready period age tenure hold rot top nest) = tenure ∧
      setMasterHold (packSettings clock ready period age tenure hold rot top nest) = hold ∧
      setRotating (packSettings clock ready period age tenure hold rot top nest) = rot := by
  have hb : (if rot = true then 2 ^ 16 else 0) ≤ 2 ^ 16 := by split <;> omega
  simp only [setTenureLimit, setMasterHold, setRotating, field, bit, packSettings, BitVec.getLsbD, Nat.testBit_eq_decide_div_mod_eq]
  rw [packed_toNat (by omega)]
  cases rot
  · simp only [Bool.false_eq_true, if_false, decide_eq_false_iff_not]
    omega
  · simp only [if_true, decide_eq_true_eq]
    omega

theorem packSettings_w2 (ht : top < 256) (hn : nest < 4) :
    setTopCode (packSettings clock ready period age tenure hold rot top nest) = top ∧
      setNestCode (packSettings clock ready period age tenure hold rot top nest) = nest := by
  simp only [setTopCode, setNestCode, field, packSettings]
  rw [packed_toNat (by omega)]
  omega

end

theorem field_lt (w : Word) (lo len : Nat) : field w lo len < 2 ^ len := Nat.mod_lt _ (by positivity)

/-- A clamped top is one of the numbers that name a line, and is its own clamp (R134). -/
theorem clampTop_range (n : Nat) : 3 ≤ clampTop n ∧ clampTop n ≤ 15 ∧ clampTop n ≠ 8 ∧ clampTop n ≠ 13 := by
  unfold clampTop
  split_ifs <;> omega

theorem clampTop_clampTop (n : Nat) : clampTop (clampTop n) = clampTop n := by
  obtain ⟨h1, h2, h3, h4⟩ := clampTop_range n
  generalize clampTop n = m at *
  unfold clampTop
  split_ifs <;> omega

/-- The clamped candidate's fields: each as it was written where it is in its range, and the nearest in range else (R171). -/
theorem clampSettings_fields (e : Entry) :
    setClockCode (clampSettings e) = (if setClockCode e = 3 then 2 else setClockCode e) ∧
    setReadyLimit (clampSettings e) = (if setReadyLimit e < 2 then 2 else setReadyLimit e) ∧
    setRefreshPeriod (clampSettings e) =
      (if 1 ≤ setRefreshPeriod e ∧ setRefreshPeriod e ≤ 4 then 5 else setRefreshPeriod e) ∧
    setAgeCode (clampSettings e) = setAgeCode e ∧ setTenureLimit (clampSettings e) = setTenureLimit e ∧
    setMasterHold (clampSettings e) = setMasterHold e ∧ setRotating (clampSettings e) = setRotating e ∧
    setTopCode (clampSettings e) = clampTop (setTopCode e) ∧
    setNestCode (clampSettings e) = (if 2 ≤ setNestCode e then 0 else setNestCode e) := by
  have hc : setClockCode e < 4 := field_lt ..
  have hr : setReadyLimit e < 64 := field_lt ..
  have hp : setRefreshPeriod e < 64 := field_lt ..
  have ha : setAgeCode e < 256 := field_lt ..
  have ht : setTenureLimit e < 256 := field_lt ..
  have hh : setMasterHold e < 256 := field_lt ..
  have hk := clampTop_range (setTopCode e)
  have hc' : (if setClockCode e = 3 then 2 else setClockCode e) < 4 := by split <;> omega
  have hr' : (if setReadyLimit e < 2 then 2 else setReadyLimit e) < 64 := by split <;> omega
  have hp' : (if 1 ≤ setRefreshPeriod e ∧ setRefreshPeriod e ≤ 4 then 5 else setRefreshPeriod e) < 64 := by split <;> omega
  have hk' : clampTop (setTopCode e) < 256 := by omega
  have hn' : (if 2 ≤ setNestCode e then 0 else setNestCode e) < 4 := by split <;> omega
  simp only [clampSettings, packSettings_w0 hc' hr' hp' ha, packSettings_w1 ht hh, packSettings_w2 hk' hn', and_self]

theorem settingsInRange_iff (e : Entry) :
    settingsInRange e = true ↔ setClockCode e ≠ 3 ∧ 2 ≤ setReadyLimit e ∧ ¬ (1 ≤ setRefreshPeriod e ∧ setRefreshPeriod e ≤ 4) ∧
      clampTop (setTopCode e) = setTopCode e ∧ setNestCode e < 2 := by
  simp only [settingsInRange, Bool.and_eq_true, decide_eq_true_eq, ne_eq, decide_not, Bool.not_eq_true', decide_eq_false_iff_not,
    Bool.and_eq_false_iff, not_and_or, and_assoc]

theorem settingsInRange_clampSettings (e : Entry) : settingsInRange (clampSettings e) = true := by
  obtain ⟨hc, hr, hp, -, -, -, -, ht, hn⟩ := clampSettings_fields e
  rw [settingsInRange_iff, hc, hr, hp, ht, hn, clampTop_clampTop]
  refine ⟨?_, ?_, ?_, rfl, ?_⟩ <;> split <;> omega

theorem applyRing_keeps (old : Entry) (s : State) : Keeps s (applyRing old s) :=
  Keeps.ite (fun _ => Keeps.refl s) fun _ => weighLines_keeps s

theorem applyPriority_keeps (old : Entry) (s : State) : Keeps s (applyPriority old s) :=
  Keeps.ite (fun _ => ⟨id, fun _ => ⟨.c7, rfl⟩, id, id, id, id, id, id, id⟩) fun _ => Keeps.refl s

theorem applyHold_keeps (old : Entry) (s : State) : Keeps s (applyHold old s) :=
  Keeps.ite (fun _ => Keeps.refl s) fun _ => Keeps.ite (fun _ => masterLong_keeps s) fun _ => Keeps.refl s

theorem applyAgeTo_within (c : Chan) (s : State) : Within { staging := true, order := true } s (applyAgeTo c s) := by
  unfold applyAgeTo
  split
  · exact Within.ite (flushDemand_within c s) (Within.refl _ s)
  · exact Within.refl _ s

theorem applyAge_within (old : Entry) (s : State) : Within { staging := true, order := true } s (applyAge old s) :=
  Within.ite (Within.refl _ s) (forChans_within applyAgeTo_within s)

theorem applyPeriod_keeps (old : Entry) (s : State) : Keeps s (applyPeriod old s) :=
  Keeps.ite (fun _ => Keeps.refl s) fun _ => Keeps.of_refresh id

theorem applySettings_keeps (e : Entry) (s : State) (h : settingsInRange e = true) : Keeps s (applySettings e s) := by
  have h0 : Keeps s { s with settings := e } := Keeps.of_settings fun _ => h
  refine Keeps.after (causing_keeps (inChannelOrder_keeps ?_)) h0
  exact Keeps.after (applyRing_keeps ..) (Keeps.after (applyPriority_keeps ..) (Keeps.after (applyHold_keeps ..)
    (Keeps.after (Keeps.of_within (applyAge_within ..)) (Keeps.after (applyPeriod_keeps ..) (Keeps.of_within (applyClock_within _))))))

theorem tableWriteSettings_keeps (r : Record) (s : State) : Keeps s (tableWriteSettings r s) :=
  Keeps.ite (fun _ => Keeps.after (answerPlain_keeps ..) (applySettings_keeps _ s (settingsInRange_clampSettings _)))
    fun _ => answerPlain_keeps _ s

theorem tableRead_keeps (r : Record) (s : State) : Keeps s (tableRead r s) :=
  Keeps.ite (fun _ => endRequest_keeps ..) fun _ => answerPlain_keeps _ s

theorem clearTable_keeps (r : Record) (s : State) :
    Keeps s (clearTable r (if r.sub.toNat = tableMap then invalidateLine s else s)) := by
  unfold clearTable
  dsimp only
  by_cases hm : r.sub.toNat = tableMap
  · have hw : ¬ r.sub.toNat = tableWindow := by simp [hm, tableMap, tableWindow]
    rw [if_pos hm, if_neg hw, if_pos hm]
    exact invalidateLine_map_keeps fun x hx => (mem_clearEntries hx).imp_right (by rintro rfl; rfl)
  · rw [if_neg hm, if_neg hm]
    exact Keeps.ite (fun _ => Keeps.of_windows fun x hx => (mem_clearEntries hx).imp_right (by rintro rfl; rfl))
      fun _ => Keeps.ite (fun _ => Keeps.of_segments fun x hx => (mem_clearEntries hx).imp_right (by rintro rfl; rfl))
      fun _ => applySettings_keeps _ s (by decide)

theorem tableClear_keeps (r : Record) (s : State) : Keeps s (tableClear r s) :=
  Keeps.ite (fun _ => Keeps.after (answerPlain_keeps ..) (clearTable_keeps r s))
    fun _ => Keeps.after (answerPlain_keeps ..) (Keeps.ite (fun _ => invalidateLine_keeps s) fun _ => Keeps.refl s)

/-! ## The resets -/

theorem rotateCutOff_keeps (s : State) : Keeps s (rotateCutOff s) := by
  unfold rotateCutOff
  split
  · exact rotateOrder_keeps ..
  · split
    · exact rotateOrder_keeps ..
    · exact Keeps.refl s
  all_goals exact Keeps.refl s

theorem assertLine_keeps (d e : Nat) (s : State) : Keeps s (assertLine d e s) := by
  refine Keeps.after (Keeps.of_putIrq fun _ => .inl rfl) (Keeps.after (Keeps.of_port id rfl rfl) (Keeps.after (Keeps.of_refresh ?_)
    (Keeps.after (Keeps.of_within (putSlot_within _ _)) (Keeps.after (Keeps.of_putArb id) (rotateCutOff_keeps s)))))
  exact fun _ => Nat.zero_le _

theorem resetChan_keeps (c : Chan) (s : State) : Keeps s (resetChan c s) := by
  unfold resetChan
  dsimp only
  split
  case h_1 hs => exact Keeps.of_putChan (fun _ => (congrArg ChanState.masked hs).symm) id
  case h_2 hs => exact Keeps.of_putChan (fun _ => (congrArg ChanState.masked hs).symm) id
  all_goals exact enterStopping_keeps c _ _ s id

theorem assertSlotReset_keeps (d e : Nat) (s : State) : Keeps s (assertSlotReset d e s) :=
  Keeps.after (Keeps.of_within (applyClock_within _)) (Keeps.after (forChans_keeps resetChan_keeps _)
    (Keeps.after (invalidateLine_keeps _) (assertLine_keeps d e s)))

theorem slotReset_keeps (r : Record) (s : State) : Keeps s (slotReset r s) :=
  Keeps.ite (fun _ => answerPlain_keeps _ s) fun _ => assertSlotReset_keeps ..

theorem completeReset_keeps (s : State) : Keeps s (completeReset s) :=
  Keeps.after (kickBus_keeps _) (Keeps.after (answerPlain_keeps ..) (Keeps.of_within (putSlot_within _ s)))

theorem releaseLine_keeps (s : State) : Keeps s (releaseLine s) := by
  unfold releaseLine
  split
  · exact Keeps.refl s
  · refine Keeps.ite (fun _ => ?_) fun _ => Keeps.refl s
    dsimp only
    generalize hu : kickBus _ = u
    have h : Keeps s u := by
      rw [← hu]
      refine Keeps.after (kickBus_keeps _) (Keeps.after (causing_keeps ?_)
        (Keeps.after (Keeps.of_refresh id) (Keeps.of_within (putSlot_within _ s))))
      exact Keeps.after (weighLines_keeps _) (Keeps.after (forChans_keeps (placeChan_keeps true) _) (Keeps.of_putIrq id))
    exact Keeps.ite (fun _ => (completeReset_keeps u).after h) fun _ => h

theorem settleEnd_keeps (s : State) : Keeps s (settleEnd s) := by
  unfold settleEnd
  split
  · exact Keeps.refl s
  · exact Keeps.ite (fun _ => completeReset_keeps s) fun _ => Keeps.refl s

theorem partResetChan_good (s : State) (c : Chan) :
    (partResetChan s c).mask = (partResetChan s c).state.masked ∧ (partResetChan s c).tcOwed = 0 := by
  unfold partResetChan
  split <;> exact ⟨rfl, rfl⟩

theorem clearPart_keeps (s : State) : Keeps s (clearPart s) := by
  have hc (c : Chan) : (clearPart s).chan c = partResetChan s c := by cases c <;> rfl
  have hz (n : Nat) (x : Entry) (h : x ∈ (Vector.replicate n Entry.zero).toList) : x = Entry.zero :=
    List.eq_of_mem_replicate (by simpa using h)
  refine ⟨fun _ c => ?_, fun _ => ⟨.c7, rfl⟩, id, fun _ => .inl rfl, fun h => ⟨h.1, h.2.1, h.2.2.1, fun c => ?_⟩, id,
    fun _ => ⟨fun x hx => ?_, fun x hx => ?_, fun x hx => ?_⟩, id, fun h => ⟨h.1, ?_, LineAgrees.of_invalid rfl fun f hf => ?_⟩⟩
  · rw [hc]
    exact (partResetChan_good s c).1
  · rw [hc, (partResetChan_good s c).2]
    exact Nat.zero_le _
  · rw [hz 32 x hx]
    rfl
  · rw [hz 32 x hx]
    rfl
  · rw [hz 64 x hx]
    rfl
  · exact (List.takeWhile_sublist _).length_le.trans h.2.1
  · obtain ⟨f', -, rfl⟩ := Option.map_eq_some_iff.1 hf
    rfl

theorem partReset_keeps (r : Record) (s : State) : Keeps s (partReset r s) :=
  Keeps.ite (fun _ => Keeps.ite (fun _ => answerPlain_keeps _ s) fun _ => (assertSlotReset_keeps ..).after (clearPart_keeps s))
    fun _ => (answerPlain_keeps ..).after (clearPart_keeps s)

end Sys2Proof.Machine
end

section
/-! PROOF. Every command and every microsecond keeps the invariants, and link reset meets them. -/

namespace Sys2Proof.Machine

set_option Elab.async false

/-! ## Link reset -/

/-- Settles O59: each invariant by computation on the values of link reset. -/
theorem invariantsHoldAfterLinkReset : Obligations.InvariantsHoldAfterLinkReset := by
  have hc (c : Chan) : State.reset.chan c = Channel.reset := by cases c <;> rfl
  have hz (n : Nat) (x : Entry) (h : x ∈ (Vector.replicate n Entry.zero).toList) : x = Entry.zero :=
    List.eq_of_mem_replicate (by simpa using h)
  refine ⟨fun c => ?masks, ⟨.c7, rfl⟩, ?bus, ?queue, ?ring, ?counts, .inl rfl, ?tables, ?settings, ?buffers⟩
  case masks => rw [hc]; rfl
  case settings => exact (show settingsInRange Entry.settingsReset = true by decide)
  case bus => exact ⟨rfl, (fun cyc h => by cases h), fun _ => rfl⟩
  case queue => exact ⟨by decide, by decide, (fun h => by cases h), fun e h => by cases h⟩
  case ring => exact ⟨by decide, by decide⟩
  case counts => exact ⟨by decide, by decide, by decide, fun c => by rw [hc]; decide⟩
  case tables =>
    exact ⟨fun x hx => hz 32 x hx ▸ by decide, fun x hx => hz 32 x hx ▸ by decide, fun x hx => hz 64 x hx ▸ by decide⟩
  case buffers => exact ⟨rfl, by decide, LineAgrees.of_invalid rfl fun f h => by cases h⟩

/-- Link reset meets every invariant but for what it keeps of the host's side, which was in its form before (R19). -/
theorem linkReset_keeps (s : State) : Keeps s (linkReset s) := by
  obtain ⟨h1, h2, -, h4, h5, h6, h7, h8, h9, -, h10, h11⟩ := invariantsHoldAfterLinkReset
  exact ⟨fun _ => h1, fun _ => h2, fun _ => h4, fun _ => h7, fun _ => h6, fun _ => h5, fun _ => h8, fun _ => h9,
    fun h => ⟨h.1, h10, h11⟩⟩

/-! ## One microsecond -/

theorem countTimers_keeps (s : State) : Keeps s (countTimers s) := ⟨id, id, id, id, id, id, id, id, id⟩

theorem pulseDue_keeps (s : State) : Keeps s (pulseDue s) := by
  unfold pulseDue
  split
  · exact Keeps.refl s
  · split
    · exact Keeps.ite (fun _ => releaseLine_keeps s) fun _ => Keeps.refl s
    · exact Keeps.ite (fun _ => settleEnd_keeps s) fun _ => Keeps.refl s
    · exact Keeps.refl s

theorem tick_keeps (s : State) : Keeps s (tick s) := by
  have h1 : Keeps s (countTimers (settle s)) := Keeps.after (countTimers_keeps _) (settled_keeps rfl rfl rfl rfl rfl)
  have h2 : Keeps s (cycleDue (countTimers (settle s))) :=
    h1.trans (Keeps.ite (fun _ => readyExpiry_keeps _) fun _ => Keeps.refl _)
  have h3 : Keeps s (heldDue (cycleDue (countTimers (settle s)))) :=
    h2.trans (Keeps.ite (fun _ => expireHeld_keeps _) fun _ => Keeps.refl _)
  have h4 : Keeps s (meterDue (heldDue (cycleDue (countTimers (settle s))))) :=
    h3.trans (Keeps.ite (fun _ => masterHoldExpiry_keeps _) fun _ => Keeps.refl _)
  have h5 : Keeps s (refreshDue (meterDue (heldDue (cycleDue (countTimers (settle s)))))) :=
    h4.trans (Keeps.ite (fun _ => refreshExpiry_keeps _) fun _ => Keeps.refl _)
  exact Keeps.after (pulseDue_keeps _) (Keeps.after (forChans_keeps (fun c x => Keeps.of_within (ageDue_within c x)) _) h5)

/-! ## Every step -/

/-- A command that answers `t` by one of its operations. -/
theorem Keeps.of_next {s t u : State} (h : Keeps s u) (ht : (Host.Outcome.next u : Host.Outcome State Fault Refusal) = .next t) :
    Keeps s t := by
  cases ht
  exact h

theorem exec_keeps (i : Instr) (s t : State) (h : exec i s = .next t) : Keeps s t := by
  cases i with
  | linkReset => exact (linkReset_keeps s).of_next h
  | apertureWriteIgnored => exact (Keeps.refl s).of_next h
  | malformed o es => exact (malformed_keeps o es s).of_next h
  | unknown k => exact (inWrite_keeps (unknownKind_keeps k.value s)).of_next h
  | queuedKindAppend r => exact (inWrite_keeps (appendRecord_keeps r.value s)).of_next h
  | ringSet tag base size => exact (inWrite_keeps (ringSet_keeps tag.value base size.toNat s)).of_next h
  | ringCredit tag w a c n => exact (inWrite_keeps (ringCredit_keeps tag.value w a c n.toNat s)).of_next h
  | queueHalt tag w => exact (inWrite_keeps (queueHalt_keeps tag.value w s)).of_next h
  | queueResume tag w => exact (inWrite_keeps (queueResume_keeps tag.value w s)).of_next h
  | queueAbort tag => exact (inWrite_keeps (queueAbort_keeps tag.value s)).of_next h
  | portRead => exact (whenTaken_keeps (slotRequest_keeps _ _) s).of_next h
  | portWrite => exact (whenTaken_keeps (slotRequest_keeps _ _) s).of_next h
  | memoryRead => exact (whenTaken_keeps (slotRequest_keeps _ _) s).of_next h
  | memoryWrite => exact (whenTaken_keeps (slotRequest_keeps _ _) s).of_next h
  | streamIn => exact (whenTaken_keeps (takeStream_keeps _) s).of_next h
  | streamOut => exact (whenTaken_keeps (takeStream_keeps _) s).of_next h
  | slotReset => exact (whenTaken_keeps slotReset_keeps s).of_next h
  | fence => exact (whenTaken_keeps fence_keeps s).of_next h
  | channelProgram => exact (whenTaken_keeps channelProgram_keeps s).of_next h
  | channelNext => exact (whenTaken_keeps channelNext_keeps s).of_next h
  | channelMaskSet => exact (whenTaken_keeps channelMaskSet_keeps s).of_next h
  | channelMaskClear => exact (whenTaken_keeps channelMaskClear_keeps s).of_next h
  | channelRequestSet => exact (whenTaken_keeps (channelRequest_keeps _) s).of_next h
  | channelRequestClear => exact (whenTaken_keeps (channelRequest_keeps _) s).of_next h
  | channelStatus => exact (whenTaken_keeps channelStatus_keeps s).of_next h
  | lineSet => exact (whenTaken_keeps lineSet_keeps s).of_next h
  | lineMaskSet => exact (whenTaken_keeps (lineMask_keeps _) s).of_next h
  | lineMaskClear => exact (whenTaken_keeps (lineMask_keeps _) s).of_next h
  | lineEndSpecific => exact (whenTaken_keeps lineEndSpecific_keeps s).of_next h
  | lineEndNonSpecific => exact (whenTaken_keeps lineEndNonSpecific_keeps s).of_next h
  | linePoll => exact (whenTaken_keeps linePoll_keeps s).of_next h
  | tableWriteWindow => exact (whenTaken_keeps tableWriteWindow_keeps s).of_next h
  | tableWriteMap => exact (whenTaken_keeps tableWriteMap_keeps s).of_next h
  | tableWriteSegment => exact (whenTaken_keeps tableWriteSegment_keeps s).of_next h
  | tableWriteSettings => exact (whenTaken_keeps tableWriteSettings_keeps s).of_next h
  | tableRead => exact (whenTaken_keeps tableRead_keeps s).of_next h
  | tableClear => exact (whenTaken_keeps tableClear_keeps s).of_next h
  | partReset => exact (whenTaken_keeps partReset_keeps s).of_next h
  | identify => exact (whenTaken_keeps (fun _ => endRequest_keeps _ _ _) s).of_next h
  | slotClockApply => exact (Keeps.of_within (applyClock_within s)).of_next h
  | hostCycleEnd sense ready data => exact (lastClock_keeps hostCycle sense ready data s).of_next h
  | unitCycleEnd ready data => exact (lastClock_keeps unitCycleOf false ready data s).of_next h
  | refreshCycleEnd ready => exact (lastClock_keeps refreshCycleOf false ready 0 s).of_next h
  | readyRelease data => exact (releaseReady_keeps data s).of_next h
  | readyLimitExpiry => exact (readyExpiry_keeps s).of_next h
  | cardCheckEdge b => exact (checkEdge_keeps b s).of_next h
  | resetDurationEnd => exact (releaseLine_keeps s).of_next h
  | settleEnd => exact (settleEnd_keeps s).of_next h
  | refreshTimerExpiry => exact (refreshExpiry_keeps s).of_next h
  | masterHoldLimit => exact (masterHoldExpiry_keeps s).of_next h
  | dmaRequestRise c => exact (requestRise_keeps c s).of_next h
  | dmaRequestFall c => exact (requestFall_keeps c s).of_next h
  | stagingAgeLimit c => exact (ageExpiry_keeps c s).of_next h
  | hostWriteIssue => exact (issueWrite_keeps s).of_next h
  | prefetchReadForm c => exact (prefetchForm_keeps c s).of_next h
  | prefetchReadComplete c id r => exact (prefetchComplete_keeps c id r s).of_next h
  | masterWriteCycle a w d => exact (masterWrite_keeps a w d s).of_next h
  | masterHeldWritePost => exact (postHeld_keeps s).of_next h
  | masterWriteDecide => exact (masterDecide_keeps s).of_next h
  | masterReadCycle a w => exact (masterRead_keeps a w s).of_next h
  | lineFillComplete r => exact (fillComplete_keeps r s).of_next h
  | interruptLineRise l => exact (lineRise_keeps l s).of_next h
  | interruptLineFall l => exact (lineFall_keeps l s).of_next h
  | streamStep => exact (streamStep_keeps s).of_next h
  | streamReadForm => exact (streamForm_keeps s).of_next h
  | streamReadComplete id r => exact (streamComplete_keeps id r s).of_next h
  | returnRecordWrite => exact (writeNext_keeps s).of_next h

/-- Taking the front command off the command queue touches no invariant; what follows is that command, or one microsecond. -/
theorem step_keeps (s t : State) (h : step s = .next t) : Keeps s t := by
  unfold step at h
  split at h
  · exact (tick_keeps s).of_next h
  · exact Keeps.after (exec_keeps _ _ t h) ⟨id, id, id, id, id, id, id, id, id⟩

/-- Settles O1: by definition of a step. -/
theorem stepRunsTheFrontCommand : Obligations.StepRunsTheFrontCommand := fun _ _ _ => rfl

/-- Settles O53. -/
theorem stepKeepsMasksAndOrder : Obligations.StepKeepsMasksAndOrder :=
  fun s t hm ho h => ⟨(step_keeps s t h).masks hm, (step_keeps s t h).order ho⟩

/-- Settles O55. -/
theorem stepKeepsTheQueue : Obligations.StepKeepsTheQueue := fun s t hq h => (step_keeps s t h).queue hq

/-- Settles O56. -/
theorem stepKeepsRingAndCounters : Obligations.StepKeepsRingAndCounters :=
  fun s t hr hc hd h => ⟨(step_keeps s t h).ring hr, (step_keeps s t h).counts hc, (step_keeps s t h).delivery hd⟩

/-- Settles O57. -/
theorem stepKeepsTablesAndSettings : Obligations.StepKeepsTablesAndSettings :=
  fun s t ht hs h => ⟨(step_keeps s t h).tables ht, (step_keeps s t h).settings hs⟩

/-- Settles O58. -/
theorem stepKeepsBuffers : Obligations.StepKeepsBuffers := fun s t hb h => (step_keeps s t h).buffers hb

end Sys2Proof.Machine
end

section
/-! PROOF. One slot cycle exactly for an owner whose cycles the board drives (R2, R56, R58, log entry 9): what each operation needs to keep
it, and so every step. -/

namespace Sys2Proof.Machine

set_option Elab.async false

/-! ## The relation -/

/-- Bus and cycle that agree before an event agree after it. -/
structure KeepsBus (s t : State) : Prop where
  good : BusGood s → BusGood t

theorem KeepsBus.refl (s : State) : KeepsBus s s := ⟨id⟩

/-- Whatever was before. -/
theorem KeepsBus.of_good {s t : State} (h : BusGood t) : KeepsBus s t := ⟨fun _ => h⟩

/-- The last event first. -/
theorem KeepsBus.after {s t u : State} (k : KeepsBus t u) (h : KeepsBus s t) : KeepsBus s u := ⟨k.good ∘ h.good⟩

theorem KeepsBus.ite {s t u : State} {p : Prop} [Decidable p] (h : p → KeepsBus s t) (k : ¬ p → KeepsBus s u) :
    KeepsBus s (if p then t else u) := by
  split
  · exact h ‹_›
  · exact k ‹_›

/-- The blocks that hold neither the bus nor its cycle. -/
abbrev Touch.offBus : Touch :=
  { pending := true, xfer := true, windows := true, queue := true, refresh := true, dma := true, map := true, staging := true,
    order := true, master := true, irq := true, segments := true, stream := true, ret := true, intake := true, settings := true,
    pins := true, host := true }

/-- The owner, the cycle and the state of the reset line are all that counts. -/
theorem KeepsBus.of_eq {s t : State} (hc : t.slot.cycle = s.slot.cycle) (hl : t.slot.line = s.slot.line)
    (ho : t.arb.owner = s.arb.owner) : KeepsBus s t := by
  refine ⟨fun h => ?_⟩
  rwa [BusGood, hc, hl, ho]

theorem KeepsBus.of_within {m : Touch} {s t : State} (h : Within m s t) (l : m.le Touch.offBus = true := by decide) :
    KeepsBus s t := by
  have k := h.mono l
  have hs := k.slot rfl
  exact .of_eq (by rw [hs]) (by rw [hs]) (congrArg Arbiter.owner (k.arb rfl))

/-- A bus with an owner is not ASSERTED. -/
theorem BusGood.line_ne {s : State} (h : BusGood s) (ho : s.arb.owner ≠ .free) : s.slot.line ≠ .asserted := fun k => ho (h.2.2 k)

/-- A free bus has no cycle. -/
theorem BusGood.cycle_none {s : State} (h : BusGood s) (ho : s.arb.owner.drives = false) : s.slot.cycle = none := by
  have hc := h.1
  rw [ho] at hc
  simpa using hc

/-- A cycle begun for the owner that has the bus. -/
theorem beginCycle_good {cyc : Cycle} {s : State} (hl : s.slot.line ≠ .asserted) (ho : cyc.owner = s.arb.owner)
    (hd : cyc.owner.drives = true) : BusGood (beginCycle cyc s) := by
  refine ⟨?_, fun c hc => ?_, fun k => absurd k hl⟩
  · show true = s.arb.owner.drives
    rw [← ho, hd]
  · cases hc
    exact ho

/-! ## Grants -/

theorem applyClock_bus (s : State) : KeepsBus s (applyClock s) := by
  unfold applyClock
  exact KeepsBus.ite (fun _ => .of_eq rfl rfl rfl) fun _ => .refl s

theorem grantHost_bus (s : State) (hl : s.slot.line ≠ .asserted) : KeepsBus s (grantHost s) := by
  unfold grantHost
  split
  · exact .refl s
  · exact .of_good (beginCycle_good hl rfl rfl)

theorem grantDma_bus (c : Chan) (s : State) (hl : s.slot.line ≠ .asserted) (ho : s.arb.owner = .free) : KeepsBus s (grantDma c s) := by
  refine KeepsBus.ite (fun _ => ⟨fun h => ⟨?_, fun cyc hc => ?_, fun k => absurd k hl⟩⟩)
    fun _ => .of_good (beginCycle_good hl rfl rfl)
  · exact congrArg Option.isSome (h.cycle_none (by rw [ho]; rfl))
  · have hn : s.slot.cycle = some cyc := hc
    rw [h.cycle_none (by rw [ho]; rfl)] at hn
    cases hn

theorem grant_bus (s : State) (hl : s.slot.line ≠ .asserted) (ho : s.arb.owner = .free) : KeepsBus s (grant s) := by
  unfold grant
  refine KeepsBus.ite (fun _ => .of_good (beginCycle_good hl rfl rfl)) fun _ => KeepsBus.ite (fun _ => grantHost_bus s hl) fun _ => ?_
  split
  · exact grantDma_bus _ s hl ho
  · exact KeepsBus.ite (fun _ => grantHost_bus s hl) fun _ => .refl s

theorem kickBus_bus (s : State) : KeepsBus s (kickBus s) := by
  unfold kickBus
  refine KeepsBus.ite (fun ho => KeepsBus.ite (fun _ => applyClock_bus s) fun hl => ?_) fun _ => .refl s
  have ha : (applyClock s).arb = s.arb := (applyClock_within s).arb rfl
  exact (grant_bus _ hl (by rw [ha, ho])).after (applyClock_bus s)

theorem askBus_bus (x : Xfer) (s : State) : KeepsBus s (askBus x s) := KeepsBus.after (kickBus_bus _) (.of_eq rfl rfl rfl)

theorem withdrawHost_bus (s : State) : KeepsBus s (withdrawHost s) := by
  unfold withdrawHost
  exact KeepsBus.ite (fun _ => .of_eq rfl rfl rfl) fun _ => .refl s

/-! ## Ends of tenures -/

theorem freeBus_good (s : State) : BusGood (freeBus s) := ⟨rfl, (fun cyc h => by cases h), fun _ => rfl⟩

theorem endDmaTenure_good (c : Chan) (s : State) : BusGood (endDmaTenure c s) := by
  have h := (KeepsBus.of_within (rotateOrder_within c (freeBus (turnAtBoundary s)))).good (freeBus_good _)
  unfold endDmaTenure
  dsimp only
  split
  case h_1 => exact (KeepsBus.of_within (enterStopping_within ..)).good h
  case h_2 => exact (KeepsBus.of_within ((putChan_within c _ _).trans (placeChan_within true c _))).good h
  all_goals exact h

theorem endMasterTenure_good (c : Chan) (s : State) : BusGood (endMasterTenure c s) := by
  unfold endMasterTenure
  dsimp only
  generalize hu : rotateOrder c _ = u
  have h : BusGood u := hu ▸ (KeepsBus.of_within (rotateOrder_within c _)).good (freeBus_good _)
  split
  case h_1 => exact (KeepsBus.of_within (endStopping_within c _)).good h
  case h_2 => exact (KeepsBus.of_within ((putChan_within c _ _).trans (placeChan_within true c _))).good h
  all_goals exact h

theorem endStream_bus (st : Status) (hf : Bool) (s : State) : KeepsBus s (endStream st hf s) := by
  unfold endStream
  split
  · exact .refl s
  · exact KeepsBus.after (.of_within (endWith_within ..)) (KeepsBus.after (.of_within (putActive_within ..))
      (KeepsBus.after (.of_within (closePiece_within _)) (withdrawHost_bus s)))

theorem endIfWalked_bus (s : State) : KeepsBus s (endIfWalked s) := by
  unfold endIfWalked
  split
  · split
    · exact KeepsBus.ite (fun _ => endStream_bus ..) fun _ => .refl s
    · exact .refl s
  · exact .refl s

theorem endStep_bus (x : Xfer) (s : State) : KeepsBus s (endStep x s) := by
  unfold endStep
  split
  · exact .refl s
  · rename_i r _
    have h1 := KeepsBus.of_within (putActive_within (some (countStep r x.moved.length x.firstFault)) s)
    have h2 := KeepsBus.ite (p := r.isIn = true)
      (fun _ => KeepsBus.after (KeepsBus.of_within (enterBytes_within r.step x.moved _)) h1) fun _ => h1
    exact KeepsBus.ite (fun _ => (endStream_bus ..).after h2) fun _ => KeepsBus.ite (fun _ => (endStream_bus ..).after h2) fun _ =>
      KeepsBus.after (endIfWalked_bus _) (KeepsBus.after (.of_within (putActive_within ..)) h2)

theorem endHostTenure_good (x : Xfer) (s : State) : BusGood (endHostTenure x s) := by
  have h : BusGood { freeBus s with xfer := none } := freeBus_good s
  refine (kickBus_bus _).good ?_
  split
  · exact (endStep_bus x _).good h
  · exact (KeepsBus.of_within (finishSlotRequest_within x _)).good h

/-! ## The ends of cycles -/

theorem continueHost_bus (x : Xfer) {s : State} (ho : s.arb.owner = .hostPath) : KeepsBus s (continueHost x s) := by
  refine KeepsBus.ite (fun _ => .of_good (endHostTenure_good x s)) fun _ => ⟨fun h => ?_⟩
  exact beginCycle_good (h.line_ne (by rw [ho]; decide)) ho.symm rfl

theorem endHostCycle_bus (cyc : Cycle) (bs : List Byte) {s : State} (ho : s.arb.owner = .hostPath) :
    KeepsBus s (endHostCycle cyc bs s) := by
  unfold endHostCycle
  split
  · exact .refl s
  · exact KeepsBus.after (continueHost_bus _ (by exact ho)) (.of_eq rfl rfl rfl)

theorem continueDma_bus (c : Chan) (tc : Bool) {s : State} (ho : s.arb.owner = .dma c) : KeepsBus s (continueDma c tc s) := by
  refine KeepsBus.ite (fun _ => ⟨fun h => ?_⟩) fun _ => .of_good ((kickBus_bus _).good (endDmaTenure_good c s))
  exact beginCycle_good (h.line_ne (by rw [ho]; simp)) ho.symm rfl

theorem endUnitCycle_bus (c : Chan) (cyc : Cycle) (bs : List Byte) {s : State} (ho : s.arb.owner = .dma c) :
    KeepsBus s (endUnitCycle c cyc bs s) := by
  have hp := performUnit_within c cyc bs s
  refine KeepsBus.ite (fun _ => .of_good ((kickBus_bus _).good (endDmaTenure_good c _))) fun _ => ?_
  have hs : KeepsBus (performUnit c cyc bs s) _ := KeepsBus.of_eq (t := (countUnit (performUnit c cyc bs s)).putSlot
    { (countUnit (performUnit c cyc bs s)).slot with lastAddr := some cyc.addr }) rfl rfl rfl
  refine KeepsBus.after (continueDma_bus c cyc.tc ?_) (hs.after (.of_within hp))
  exact (congrArg Arbiter.owner (hp.arb rfl)).trans ho

theorem endRefreshCycle_bus (cyc : Cycle) {s : State} (ho : s.arb.owner = .refresh) : KeepsBus s (endRefreshCycle cyc s) := by
  unfold endRefreshCycle
  dsimp only
  refine KeepsBus.ite (fun _ => .of_good ((kickBus_bus _).good (freeBus_good _))) fun _ => ⟨fun h => ?_⟩
  exact beginCycle_good (h.line_ne (by rw [ho]; decide)) ho.symm rfl

/-- The cycle in progress is the owner's, whatever ends it. -/
theorem endCycle_bus (cyc : Cycle) (d : BusWord) {s : State} (ho : s.arb.owner = cyc.owner) : KeepsBus s (endCycle cyc d s) := by
  unfold endCycle
  split
  case h_1 hc => exact endHostCycle_bus cyc _ (ho.trans hc)
  case h_2 c hc => exact endUnitCycle_bus c cyc _ (ho.trans hc)
  case h_3 hc => exact endRefreshCycle_bus cyc (ho.trans hc)
  all_goals exact .refl s

theorem Cycle.sensed_owner (cyc : Cycle) (b : Bool) : (cyc.sensed b).owner = cyc.owner := by
  unfold Cycle.sensed
  split <;> rfl

/-- A cycle in progress rewritten, with its owner kept. -/
theorem putCycle_bus {cyc cyc' : Cycle} {s : State} {e : SlotEngine} (hc : s.slot.cycle = some cyc) (he : e.cycle = some cyc')
    (hl : e.line = s.slot.line) (ho : cyc'.owner = cyc.owner) : KeepsBus s (s.putSlot e) := by
  refine ⟨fun ⟨h1, h2, h3⟩ => ⟨?_, fun c h => ?_, fun k => h3 (hl.symm.trans k)⟩⟩
  · rw [State.putSlot_slot, he]
    rw [hc] at h1
    exact h1
  · rw [State.putSlot_slot, he] at h
    cases h
    exact ho.trans (h2 cyc hc)

theorem lastClock_bus (mine : Cycle → Bool) (sense ready : Bool) (d : BusWord) (s : State) :
    KeepsBus s (lastClock mine sense ready d s) := by
  unfold lastClock
  split
  · rename_i cyc hc
    refine KeepsBus.ite (fun _ => KeepsBus.ite (fun _ => ⟨fun h => ?_⟩) fun _ => ?_) fun _ => .refl s
    · exact (endCycle_bus _ d ((h.2.1 cyc hc).symm.trans (cyc.sensed_owner sense).symm)).good h
    · exact putCycle_bus hc rfl rfl (cyc.sensed_owner sense)
  · exact .refl s

theorem releaseReady_bus (d : BusWord) (s : State) : KeepsBus s (releaseReady d s) := by
  unfold releaseReady
  split
  · rename_i cyc hc
    exact KeepsBus.ite (fun _ => ⟨fun h => (endCycle_bus cyc d (h.2.1 cyc hc).symm).good h⟩) fun _ => .refl s
  · exact .refl s

theorem oweSlotFault_bus (k : Cause) (b : Bool) (a : Option Nat) (s : State) : KeepsBus s (oweSlotFault k b a s) := by
  unfold oweSlotFault
  split
  · exact .refl s
  · exact .of_eq rfl rfl rfl

theorem oweSlotFault_arb (k : Cause) (b : Bool) (a : Option Nat) (s : State) : (oweSlotFault k b a s).arb = s.arb :=
  (oweSlotFault_within k b a s).arb rfl

theorem expireCycle_bus (cyc : Cycle) {s : State} (ho : s.arb.owner = cyc.owner) : KeepsBus s (expireCycle cyc s) := by
  unfold expireCycle
  dsimp only
  split
  · exact KeepsBus.after (endCycle_bus _ _ (by exact ho)) (.of_within (faultXfer_within .ready s))
  · exact endCycle_bus _ _ (by exact ho)
  · exact KeepsBus.after (endCycle_bus _ _ (by rw [oweSlotFault_arb]; exact ho)) (oweSlotFault_bus ..)
  · exact .refl s
  · exact .refl s

theorem readyExpiry_bus (s : State) : KeepsBus s (readyExpiry s) := by
  unfold readyExpiry
  split
  · rename_i cyc hc
    exact KeepsBus.ite (fun _ => ⟨fun h => (expireCycle_bus cyc (h.2.1 cyc hc).symm).good h⟩) fun _ => .refl s
  · exact .of_within (expireHeld_within s)

/-! ## The card check line and the timers -/

theorem markCheck_bus (s : State) : KeepsBus s (markCheck s) := by
  cases hc : s.slot.cycle with
  | none => exact .of_eq (by simp [markCheck, hc]) rfl rfl
  | some cyc => exact putCycle_bus hc (congrArg (Option.map _) hc) rfl rfl

theorem checkHost_bus (s : State) : KeepsBus s (checkHost s) := by
  unfold checkHost
  split
  · exact KeepsBus.ite (fun _ => .refl s) fun _ => KeepsBus.after (markCheck_bus _) (.of_within (faultXfer_within .check s))
  · exact .refl s

theorem checkHostBetween_bus (s : State) : KeepsBus s (checkHostBetween s) := by
  unfold checkHostBetween
  split
  · exact .refl s
  · exact KeepsBus.ite (fun _ => .of_good (endHostTenure_good ..)) fun _ => .of_eq rfl rfl rfl

theorem checkUnitBetween_bus (c : Chan) (a : Nat) (s : State) : KeepsBus s (checkUnitBetween c a s) :=
  KeepsBus.ite (fun _ => .of_good ((kickBus_bus _).good (endDmaTenure_good c _))) fun _ => .of_within (unitFault_within .check a c s)

theorem chargeCheck_bus (b : Bool) (s : State) : KeepsBus s (chargeCheck b s) := by
  unfold chargeCheck
  dsimp only
  split
  · exact KeepsBus.ite (fun _ => checkHostBetween_bus s) fun _ => checkHost_bus s
  · exact KeepsBus.ite (fun _ => checkUnitBetween_bus ..) fun _ => markCheck_bus s
  · split
    · exact .of_within (unitFault_within ..)
    · exact .refl s
  · exact oweSlotFault_bus ..
  · exact oweSlotFault_bus ..

theorem checkEdge_bus (b : Bool) (s : State) : KeepsBus s (checkEdge b s) :=
  KeepsBus.ite (fun _ => .refl s) fun _ => KeepsBus.after (chargeCheck_bus b _) (.of_eq rfl rfl rfl)

theorem refreshExpiry_bus (s : State) : KeepsBus s (refreshExpiry s) := by
  unfold refreshExpiry
  dsimp only
  exact KeepsBus.ite (fun _ => KeepsBus.ite (fun _ => KeepsBus.after (kickBus_bus _) (.of_eq rfl rfl rfl)) fun _ =>
    KeepsBus.ite (fun _ => .of_eq rfl rfl rfl) fun _ => .of_eq rfl rfl rfl) fun _ => .refl s

theorem masterLong_bus (s : State) : KeepsBus s (masterLong s) := .of_eq rfl rfl rfl

theorem masterHoldExpiry_bus (s : State) : KeepsBus s (masterHoldExpiry s) :=
  KeepsBus.ite (fun _ => KeepsBus.after (masterLong_bus _) (.of_eq rfl rfl rfl)) fun _ => .refl s

/-! ## The cards -/

theorem requestRise_bus (c : Chan) (s : State) : KeepsBus s (requestRise c s) :=
  KeepsBus.ite (fun _ => .refl s) fun _ =>
    KeepsBus.after (kickBus_bus _) (KeepsBus.after (.of_within (placeChan_within true c _)) (.of_eq rfl rfl rfl))

theorem requestFall_bus (c : Chan) (s : State) : KeepsBus s (requestFall c s) :=
  KeepsBus.ite (fun _ => KeepsBus.ite (fun _ => .of_good ((kickBus_bus _).good (endMasterTenure_good c _)))
    fun _ => KeepsBus.after (kickBus_bus _) (KeepsBus.after (.of_within (placeChan_within true c _)) (.of_eq rfl rfl rfl)))
    fun _ => .refl s

theorem lineRise_bus (l : Line) (s : State) : KeepsBus s (lineRise l s) :=
  KeepsBus.ite (fun _ => .refl s) fun _ => KeepsBus.ite (fun _ => .of_eq rfl rfl rfl) fun _ =>
    KeepsBus.after (.of_within (weighLines_within _)) (.of_eq rfl rfl rfl)

theorem lineFall_bus (l : Line) (s : State) : KeepsBus s (lineFall l s) :=
  KeepsBus.ite (fun _ => KeepsBus.ite (fun _ => .of_eq rfl rfl rfl) fun _ =>
    KeepsBus.after (.of_within (weighLines_within _)) (.of_eq rfl rfl rfl)) fun _ => .refl s

theorem stretch_within (k : HeldKind) (a e h : Nat) (s : State) : Within { master := true } s (stretch k a e h s) :=
  putMaster_within _ s

theorem masterWrite_bus (addr : BitVec 24) (wide : Bool) (d : BusWord) (s : State) : KeepsBus s (masterWrite addr wide d s) := by
  have h : KeepsBus s (noteMaster addr.toNat s) := .of_eq rfl rfl rfl
  unfold masterWrite
  refine KeepsBus.ite (fun _ => ?_) fun _ => .refl s
  dsimp only
  split
  · exact h
  · exact KeepsBus.after (.of_within (masterFault_within ..)) h
  · exact KeepsBus.after (KeepsBus.ite (fun _ => .of_within (postWrite_within ..)) fun _ => .of_within (stretch_within ..)) h

theorem readMiss_within (a len e h : Nat) (s : State) : Within { master := true, order := true } s (readMiss a len e h s) := by
  have hd := decideAll_within s
  unfold readMiss
  dsimp only
  split
  · exact (hd.seq (stretch_within ..) (k := { master := true, order := true })).seq (formFill_within ..)
  · refine Within.ite (hd.seq (stretch_within ..)) ?_
    exact hd.seq ((putMaster_within _ _).trans (stretch_within ..))

theorem masterRead_bus (addr : BitVec 24) (wide : Bool) (s : State) : KeepsBus s (masterRead addr wide s) := by
  have h : KeepsBus s (noteMaster addr.toNat s) := .of_eq rfl rfl rfl
  unfold masterRead
  refine KeepsBus.ite (fun _ => ?_) fun _ => .refl s
  dsimp only
  split
  · exact h
  · exact KeepsBus.after (.of_within (m := { master := true }) ((putMaster_within ..).trans (masterFault_within ..))) h
  · refine KeepsBus.after ?_ h
    unfold acceptRead
    split
    · exact .of_eq rfl rfl rfl
    · exact .of_within (readMiss_within ..)

/-! ## Requests -/

theorem whenTaken_bus {row : Record → Bool} {body : Record → State → State} (h : ∀ r s, KeepsBus s (body r s)) (s : State) :
    KeepsBus s (whenTaken row body s) := by
  unfold whenTaken
  split
  · exact KeepsBus.ite (fun _ => KeepsBus.after (h _ _) (.of_within (setPhase_within _ s))) fun _ => .refl s
  · exact .refl s

theorem answerPlain_bus (st : Status) (s : State) : KeepsBus s (answerPlain st s) := .of_within (answerPlain_within st s)

theorem endRequest_bus (st : Status) (n : Nat) (d : List Byte) (s : State) : KeepsBus s (endRequest st n d s) :=
  .of_within (endRequest_within st n d s)

theorem causing_bus {event : State → State} {s : State} (h : KeepsBus s (event s)) : KeepsBus s (causing event s) :=
  KeepsBus.after (KeepsBus.of_eq (s := event s) rfl rfl rfl) h

theorem channelProgram_bus (r : Record) (s : State) : KeepsBus s (channelProgram r s) := by
  unfold channelProgram
  split
  · refine KeepsBus.ite (fun _ => ?_) fun _ => answerPlain_bus _ s
    exact KeepsBus.after (answerPlain_bus ..) (.of_eq rfl rfl rfl)
  all_goals exact answerPlain_bus _ s

theorem holdNext_within (c : Chan) (b : Block) (s : State) : Within { dma := true, staging := true } s (holdNext c b s) := by
  have h := putChan_within c { s.chan c with nextBlock := some b } s
  have h2 : Within { dma := true, staging := true } s (if (s.chan c).dir = .fromMemory
      then cursorNext c b (s.putChan c { s.chan c with nextBlock := some b }) else s.putChan c { s.chan c with nextBlock := some b }) :=
    Within.ite (h.seq (cursorNext_within ..)) (h.mono (by decide))
  exact h2.seq (placeChan_within false c _)

theorem channelNext_bus (r : Record) (s : State) : KeepsBus s (channelNext r s) := by
  unfold channelNext
  split
  · exact KeepsBus.ite (fun _ => answerPlain_bus _ s) fun _ => KeepsBus.ite (fun _ => answerPlain_bus _ s) fun _ =>
      KeepsBus.after (answerPlain_bus ..) (.of_within (holdNext_within ..))
  all_goals exact answerPlain_bus _ s

/-- A CHANNEL MASK set of the marked channels (R76). -/
theorem maskChans_within (m : PerChan Bool) (s : State) :
    Within Touch.stopping s (forChans (fun c x => if m.get c then maskChan c x else x) s) :=
  forChans_within (fun c x => Within.ite (maskChan_within c x) (Within.refl _ x)) s

/-- A CHANNEL MASK clear of the marked channels (R78). -/
theorem clearMasks_within (m : PerChan Bool) (s : State) :
    Within { dma := true, staging := true } s (forChans (fun c x => if m.get c then clearMask c x else x) s) :=
  forChans_within (fun c x => Within.ite (clearMask_within c x) (Within.refl _ x)) s

theorem channelMaskSet_bus (r : Record) (s : State) : KeepsBus s (channelMaskSet r s) :=
  KeepsBus.ite (fun _ => answerPlain_bus _ s) fun _ => KeepsBus.after (.of_within (maskCheck_within _))
    (KeepsBus.after (.of_within (setWork_within ..)) (.of_within (maskChans_within _ s)))

theorem channelMaskClear_bus (r : Record) (s : State) : KeepsBus s (channelMaskClear r s) :=
  KeepsBus.ite (fun _ => answerPlain_bus _ s) fun _ => KeepsBus.after (kickBus_bus _) (KeepsBus.after (.of_within (maskCheck_within _))
    (KeepsBus.after (.of_within (setWork_within ..)) (.of_within (clearMasks_within _ s))))

theorem setSoft_within (on : Bool) (c : Chan) (s : State) : Within { dma := true } s (setSoft on c s) :=
  causing_within ((putChan_within c { s.chan c with soft := on } s).trans (placeChan_within true c _))

theorem channelRequest_bus (on : Bool) (r : Record) (s : State) : KeepsBus s (channelRequest on r s) := by
  unfold channelRequest
  split
  · exact answerPlain_bus _ s
  · exact KeepsBus.ite (fun _ => answerPlain_bus _ s) fun _ => KeepsBus.after (answerPlain_bus ..)
      (KeepsBus.after (kickBus_bus _) (.of_within (setSoft_within ..)))

theorem channelStatus_bus (r : Record) (s : State) : KeepsBus s (channelStatus r s) := by
  unfold channelStatus
  split
  · exact answerPlain_bus _ s
  · exact KeepsBus.after (endRequest_bus ..) (KeepsBus.ite (fun _ => .of_eq rfl rfl rfl) fun _ => .refl s)

theorem weighed_bus {s t : State} (h : KeepsBus s t) : KeepsBus s (weighLines t) :=
  KeepsBus.after (.of_within (weighLines_within t)) h

theorem lineSet_bus (r : Record) (s : State) : KeepsBus s (lineSet r s) := by
  unfold lineSet
  split
  · exact answerPlain_bus _ s
  · exact KeepsBus.ite (fun _ => KeepsBus.after (answerPlain_bus ..) (causing_bus (weighed_bus (.of_eq rfl rfl rfl))))
      fun _ => answerPlain_bus _ s

theorem lineMask_bus (on : Bool) (r : Record) (s : State) : KeepsBus s (lineMask on r s) :=
  KeepsBus.ite (fun _ => KeepsBus.after (answerPlain_bus ..) (causing_bus (weighed_bus (.of_eq rfl rfl rfl))))
    fun _ => answerPlain_bus _ s

theorem endService_bus (l : Line) (rot : Bool) (s : State) : KeepsBus s (endService l rot s) := by
  unfold endService
  exact KeepsBus.ite (fun _ => .of_eq rfl rfl rfl) fun _ => .of_eq rfl rfl rfl

theorem endLine_bus (l : Line) (rot : Bool) (s : State) : KeepsBus s (endLine l rot s) :=
  KeepsBus.ite (fun _ => KeepsBus.after (answerPlain_bus ..) (causing_bus (weighed_bus (endService_bus l rot s))))
    fun _ => answerPlain_bus _ s

theorem lineEndSpecific_bus (r : Record) (s : State) : KeepsBus s (lineEndSpecific r s) := by
  unfold lineEndSpecific
  split
  · exact answerPlain_bus _ s
  · exact endLine_bus ..

theorem lineEndNonSpecific_bus (r : Record) (s : State) : KeepsBus s (lineEndNonSpecific r s) := by
  unfold lineEndNonSpecific
  split
  · exact answerPlain_bus _ s
  · exact endLine_bus ..

theorem linePoll_bus (r : Record) (s : State) : KeepsBus s (linePoll r s) :=
  weighed_bus (KeepsBus.ite (fun _ => .of_eq rfl rfl rfl) fun _ => .of_within (pollSelect_within s))

theorem slotRequest_bus (sp : Space) (rd : Bool) (r : Record) (s : State) : KeepsBus s (slotRequest sp rd r s) := by
  unfold slotRequest
  refine KeepsBus.ite (fun _ => answerPlain_bus _ s) fun _ => KeepsBus.ite (fun _ => answerPlain_bus _ s) fun _ => ?_
  split
  · exact answerPlain_bus _ s
  · exact KeepsBus.ite (fun _ => answerPlain_bus _ s) fun _ => KeepsBus.ite (fun _ => endRequest_bus ..) fun _ =>
      KeepsBus.after (askBus_bus _ _) (.of_within (setPhase_within _ s))

theorem startStream_within (isIn : Bool) (e : Entry) (r : Record) (s : State) :
    Within { queue := true, stream := true, order := true } s (startStream isIn e r s) := by
  have h := (setPhase_within .waiting s).seq (putActive_within (some (prepareStep s (newStream isIn e r))) _)
    (k := { queue := true, stream := true, order := true })
  exact Within.ite h (h.seq (formStreamRead_within _))

theorem takeStream_bus (isIn : Bool) (r : Record) (s : State) : KeepsBus s (takeStream isIn r s) := by
  unfold takeStream
  refine KeepsBus.ite (fun _ => answerPlain_bus _ s) fun _ => KeepsBus.ite (fun _ => answerPlain_bus _ s) fun _ => ?_
  split
  · exact answerPlain_bus _ s
  · exact KeepsBus.ite (fun _ => answerPlain_bus _ s) fun _ => KeepsBus.ite (fun _ => endRequest_bus ..) fun _ =>
      KeepsBus.ite (fun _ => endRequest_bus ..) fun _ => .of_within (startStream_within ..)

theorem fenceCheck_within (s : State) : Within { queue := true, stream := true } s (fenceCheck s) := by
  unfold fenceCheck
  split
  · exact Within.ite (endRequest_within ..) (Within.refl _ s)
  all_goals exact Within.refl _ s

theorem fence_bus (r : Record) (s : State) : KeepsBus s (fence r s) :=
  KeepsBus.ite (fun _ => answerPlain_bus _ s) fun _ => KeepsBus.after (.of_within (fenceCheck_within _))
    (KeepsBus.after (.of_within (setWork_within ..)) (.of_within (makeDrain_within ..)))

theorem applySettings_bus (e : Entry) (s : State) : KeepsBus s (applySettings e s) := by
  have hperiod (x : State) : KeepsBus x (applyPeriod s.settings x) :=
    KeepsBus.ite (fun _ => .refl _) fun _ => .of_eq rfl rfl rfl
  have hhold (x : State) : KeepsBus x (applyHold s.settings x) :=
    KeepsBus.ite (fun _ => .refl _) fun _ => KeepsBus.ite (fun _ => masterLong_bus _) fun _ => .refl _
  have hprio (x : State) : KeepsBus x (applyPriority s.settings x) :=
    KeepsBus.ite (fun _ => .of_eq rfl rfl rfl) fun _ => .refl _
  have hring (x : State) : KeepsBus x (applyRing s.settings x) :=
    KeepsBus.ite (fun _ => .refl _) fun _ => .of_within (weighLines_within x)
  have horder {event : State → State} {x : State} (h : KeepsBus x (event x)) : KeepsBus x (inChannelOrder event x) :=
    KeepsBus.after (.of_within (putOrder_within ..)) h
  have h0 : KeepsBus s { s with settings := e } := .of_eq rfl rfl rfl
  exact KeepsBus.after (causing_bus (horder (KeepsBus.after (hring _) (KeepsBus.after (hprio _) (KeepsBus.after (hhold _)
    (KeepsBus.after (.of_within (applyAge_within ..)) (KeepsBus.after (hperiod _) (applyClock_bus _)))))))) h0

theorem tableWriteWindow_bus (r : Record) (s : State) : KeepsBus s (tableWriteWindow r s) :=
  KeepsBus.ite (fun _ => KeepsBus.ite (fun _ => KeepsBus.after (answerPlain_bus ..) (.of_eq rfl rfl rfl)) fun _ => answerPlain_bus _ s)
    fun _ => answerPlain_bus _ s

theorem tableWriteMap_bus (r : Record) (s : State) : KeepsBus s (tableWriteMap r s) :=
  KeepsBus.ite (fun _ => KeepsBus.ite (fun _ => KeepsBus.after (answerPlain_bus ..) (.of_eq rfl rfl rfl))
    fun _ => KeepsBus.after (answerPlain_bus ..) (.of_eq rfl rfl rfl)) fun _ => KeepsBus.after (answerPlain_bus ..) (.of_eq rfl rfl rfl)

theorem tableWriteSegment_bus (r : Record) (s : State) : KeepsBus s (tableWriteSegment r s) :=
  KeepsBus.ite (fun _ => KeepsBus.ite (fun _ => KeepsBus.after (answerPlain_bus ..) (.of_eq rfl rfl rfl)) fun _ => answerPlain_bus _ s)
    fun _ => answerPlain_bus _ s

theorem tableWriteSettings_bus (r : Record) (s : State) : KeepsBus s (tableWriteSettings r s) :=
  KeepsBus.ite (fun _ => KeepsBus.after (answerPlain_bus ..) (applySettings_bus _ s)) fun _ => answerPlain_bus _ s

theorem tableRead_bus (r : Record) (s : State) : KeepsBus s (tableRead r s) :=
  KeepsBus.ite (fun _ => endRequest_bus ..) fun _ => answerPlain_bus _ s

theorem tableClear_bus (r : Record) (s : State) : KeepsBus s (tableClear r s) := by
  have h : KeepsBus s (if r.sub.toNat = tableMap then invalidateLine s else s) :=
    KeepsBus.ite (fun _ => .of_eq rfl rfl rfl) fun _ => .refl s
  have hc (x : State) : KeepsBus x (clearTable r x) :=
    KeepsBus.ite (fun _ => .of_eq rfl rfl rfl) fun _ => KeepsBus.ite (fun _ => .of_eq rfl rfl rfl) fun _ =>
      KeepsBus.ite (fun _ => .of_eq rfl rfl rfl) fun _ => applySettings_bus ..
  exact KeepsBus.ite (fun _ => KeepsBus.after (answerPlain_bus ..) ((hc _).after h)) fun _ => KeepsBus.after (answerPlain_bus ..) h

/-! ## The resets -/

theorem resetChan_within (c : Chan) (s : State) : Within Touch.stopping s (resetChan c s) := by
  unfold resetChan
  dsimp only
  split
  all_goals first
    | exact (putChan_within c _ s).seq (enterStopping_within ..)
    | exact (putChan_within c _ s).mono (by decide)

/-- The ASSERTED line leaves the bus without owner and cycle (R16, R58). -/
theorem assertSlotReset_good (d e : Nat) (s : State) : BusGood (assertSlotReset d e s) := by
  have h : BusGood (assertLine d e s) := ⟨rfl, (fun cyc hc => by cases hc), fun _ => rfl⟩
  have hr := (KeepsBus.of_within (forChans_within resetChan_within _)).good ((KeepsBus.of_within (invalidateLine_within _)).good h)
  exact (applyClock_bus _).good hr

theorem slotReset_bus (r : Record) (s : State) : KeepsBus s (slotReset r s) :=
  KeepsBus.ite (fun _ => answerPlain_bus _ s) fun _ => .of_good (assertSlotReset_good ..)

/-- A reset line that is no longer ASSERTED takes nothing from an owner. -/
theorem KeepsBus.of_released {s t : State} (hc : t.slot.cycle = s.slot.cycle) (ho : t.arb.owner = s.arb.owner)
    (hl : t.slot.line ≠ .asserted) : KeepsBus s t := by
  refine ⟨fun ⟨h1, h2, _⟩ => ⟨?_, fun cyc h => ?_, fun k => absurd k hl⟩⟩
  · rw [hc, ho]
    exact h1
  · rw [ho]
    exact h2 cyc (hc.symm.trans h)

theorem completeReset_bus (s : State) : KeepsBus s (completeReset s) :=
  KeepsBus.after (kickBus_bus _) (KeepsBus.after (answerPlain_bus ..) (.of_released rfl rfl (by simp)))

theorem releaseLine_bus (s : State) : KeepsBus s (releaseLine s) := by
  unfold releaseLine
  split
  · exact .refl s
  · refine KeepsBus.ite (fun _ => ?_) fun _ => .refl s
    dsimp only
    generalize hr : State.mk _ _ _ _ _ _ _ _ _ _ _ _ _ _ _ _ _ _ _ _ = r
    have hs : KeepsBus s r := by
      rw [← hr]
      exact .of_released rfl rfl (by simp)
    generalize hu : kickBus _ = u
    have h : KeepsBus s u := by
      rw [← hu]
      have hresume : KeepsBus r (resumeCapture r) := .of_eq rfl rfl rfl
      exact KeepsBus.after (kickBus_bus _) (KeepsBus.after (causing_bus (weighed_bus (KeepsBus.after
        (.of_within (forChans_within (placeChan_within true) _)) hresume))) hs)
    exact KeepsBus.ite (fun _ => (completeReset_bus u).after h) fun _ => h

theorem settleEnd_bus (s : State) : KeepsBus s (settleEnd s) := by
  unfold settleEnd
  split
  · exact .refl s
  · exact KeepsBus.ite (fun _ => completeReset_bus s) fun _ => .refl s

/-- PART RESET leaves the bus and the cycle in progress, but for the mark on a unit (R96). -/
theorem clearPart_bus (s : State) : KeepsBus s (clearPart s) := by
  refine ⟨fun ⟨h1, h2, h3⟩ => ?_⟩
  have hc : (clearPart s).slot.cycle = s.slot.cycle ∨ (clearPart s).slot.cycle = s.slot.cycle.map (fun cyc => { cyc with discard := true }) := by
    show discardUnit s = _ ∨ discardUnit s = _
    unfold discardUnit
    split
    · exact .inr rfl
    · exact .inl rfl
  rcases hc with hc | hc
  · exact ⟨(congrArg Option.isSome hc).trans h1, fun cyc h => h2 cyc (hc.symm.trans h), h3⟩
  · refine ⟨(congrArg Option.isSome hc).trans (by rw [Option.isSome_map]; exact h1), fun cyc h => ?_, h3⟩
    obtain ⟨cyc', h', rfl⟩ := Option.map_eq_some_iff.1 (hc.symm.trans h)
    exact h2 cyc' h'

theorem partReset_bus (r : Record) (s : State) : KeepsBus s (partReset r s) :=
  KeepsBus.ite (fun _ => KeepsBus.ite (fun _ => answerPlain_bus _ s) fun _ => .of_good (assertSlotReset_good ..))
    fun _ => KeepsBus.after (answerPlain_bus ..) (clearPart_bus s)

/-! ## The host side, intake and the return writer -/

theorem hostTakes_within (src : WriteSource) (a : Nat) (bs : List Byte) (s : State) :
    Within { host := true } s (hostTakes src a bs s) := by
  cases src <;> constructor <;> intro h <;> first | rfl | cases h

/-- What the issue of a write may touch before it weighs the lines. -/
abbrev Touch.issuing : Touch :=
  { irq := true, queue := true, stream := true, dma := true, staging := true, master := true, order := true }

theorem sourceIssued_within (src : WriteSource) (k : Nat) (s : State) : Within Touch.issuing s (sourceIssued src k s) := by
  cases src
  case run c =>
    exact (((putStage_within c _ s).seq (tallyWaits_within _ _) (k := Touch.issuing)).seq (endStopping_within c _)
      (k := Touch.issuing)).seq (placeChan_within true c _)
  case master n =>
    exact (((putMaster_within _ s).seq (tallyWaits_within _ _) (k := Touch.issuing)).seq (postHeld_within _)
      (k := Touch.issuing)).seq (masterDecide_within _)
  all_goals exact Within.refl _ s

theorem afterIssue_within (src : WriteSource) (k : Nat) (s : State) : Within Touch.issuing s (afterIssue src k s) :=
  ((sourceIssued_within src k s).seq (fenceCheck_within _) (k := Touch.issuing)).seq (weighLines_within _)

theorem issueWrite_bus (s : State) : KeepsBus s (issueWrite s) := by
  unfold issueWrite
  split
  · exact KeepsBus.after (kickBus_bus _) (KeepsBus.after (.of_within (inChannelOrder_within (afterIssue_within ..) rfl))
      (KeepsBus.after (.of_within (hostTakes_within ..)) (.of_within (putOrder_within ..))))
  all_goals exact .refl s

theorem prefetchForm_bus (c : Chan) (s : State) : KeepsBus s (prefetchForm c s) := by
  have hf (l n : Nat) (f : ChanFault) : KeepsBus s (fillPrefetch c l n f s) :=
    KeepsBus.after (kickBus_bus _) (KeepsBus.after (.of_within (placeChan_within true c _))
      (KeepsBus.after (.of_within (unitFault_within ..)) (.of_within (putStage_within ..))))
  unfold prefetchForm
  split
  · exact .refl s
  · exact KeepsBus.after (.of_within (formRead_within ..)) (.of_eq rfl rfl rfl)
  · exact hf ..
  · exact hf ..

theorem prefetchComplete_bus (c : Chan) (id : Nat) (r : ReadResult) (s : State) : KeepsBus s (prefetchComplete c id r s) := by
  have h (bs : List Byte) : KeepsBus s (placeRead c id bs s) := .of_eq rfl rfl rfl
  unfold prefetchComplete
  split
  · exact KeepsBus.ite (fun _ => KeepsBus.after (kickBus_bus _) (KeepsBus.after (.of_within (placeChan_within true c _)) (h _)))
      fun _ => .refl s
  · exact KeepsBus.after (kickBus_bus _) (KeepsBus.after (.of_within (placeChan_within true c _))
      (KeepsBus.after (.of_within (unitFault_within ..)) (h _)))
  all_goals exact .refl s

theorem fillError_within (f : Fill) (s : State) : Within { master := true } s (fillError f s) := by
  unfold fillError
  dsimp only
  split
  · exact putMaster_within _ s
  · split
    · exact putMaster_within _ s
    · exact Within.ite (((putMaster_within _ s).trans (releaseCycle_within ..)).trans (masterFault_within ..)) (putMaster_within _ s)

theorem answerHeld_within (f : Fill) (s : State) : Within { master := true } s (answerHeld f s) := by
  unfold answerHeld
  split
  · exact Within.refl _ s
  · split
    · exact Within.refl _ s
    · exact Within.ite (releaseCycle_within ..) (Within.refl _ s)

theorem fillIgnored_within (s : State) : Within { master := true, order := true } s (fillIgnored s) := by
  unfold fillIgnored
  dsimp only
  split
  · exact (putMaster_within _ s).mono (by decide)
  · split
    · exact (putMaster_within _ s).mono (by decide)
    · exact Within.ite (((putMaster_within _ s).trans (putMaster_within _ _)).seq (formFill_within ..))
        ((putMaster_within _ s).mono (by decide))

theorem fillComplete_within (r : ReadResult) (s : State) : Within { master := true, order := true } s (fillComplete r s) := by
  unfold fillComplete
  split
  · exact Within.refl _ s
  · refine Within.ite (Within.refl _ s) (Within.ite (fillIgnored_within s) ?_)
    split
    · exact (fillError_within _ s).mono (by decide)
    · exact Within.ite (((putMaster_within _ s).trans (answerHeld_within ..)).mono (by decide)) (Within.refl _ s)

theorem streamStep_bus (s : State) : KeepsBus s (streamStep s) := by
  unfold streamStep
  split
  · exact .refl s
  · refine KeepsBus.ite (fun _ => ?_) fun _ => .refl s
    split
    · exact askBus_bus ..
    · exact .refl s

theorem streamForm_bus (s : State) : KeepsBus s (streamForm s) :=
  KeepsBus.ite (fun _ => (endIfWalked_bus _).after (.of_within (formStreamRead_within s))) fun _ => .refl s

theorem streamComplete_bus (id : Nat) (r : ReadResult) (s : State) : KeepsBus s (streamComplete id r s) := by
  unfold streamComplete
  split
  · exact KeepsBus.ite (fun _ => .of_eq rfl rfl rfl) fun _ => .refl s
  · exact KeepsBus.after (endIfWalked_bus _) (.of_eq rfl rfl rfl)
  all_goals exact .refl s

theorem putRecord_bus (r : Return) (s : State) : KeepsBus s (putRecord r s) := by
  rw [putRecord_eq]
  exact .of_eq rfl rfl rfl

theorem told_bus (src : Source) (s : State) : KeepsBus s (src.told s) := by
  cases src
  case response => exact .of_within (retire_within s)
  case post => exact weighed_bus (.of_eq rfl rfl rfl)
  all_goals exact .of_eq rfl rfl rfl

theorem writeNext_bus (s : State) : KeepsBus s (writeNext s) := by
  unfold writeNext
  refine KeepsBus.ite (fun _ => ?_) fun _ => .refl s
  split
  · exact (told_bus ..).after (putRecord_bus ..)
  · exact .refl s

theorem inWrite_bus {more : Bool} {event : State → State} {s : State} (h : KeepsBus s (event s)) : KeepsBus s (inWrite more event s) :=
  KeepsBus.after (KeepsBus.of_eq (s := event s) rfl rfl rfl) h

theorem armNotice_bus (s : State) : KeepsBus s (armNotice s) := by
  unfold armNotice
  refine KeepsBus.ite (fun _ => ?_) fun _ => .of_eq rfl rfl rfl
  rw [sendMsi_eq]
  exact .of_eq rfl rfl rfl

theorem ringCredit_bus (tag : Byte) (wants arm clear : Bool) (n : Nat) (s : State) :
    KeepsBus s (ringCredit tag wants arm clear n s) := by
  have h1 : KeepsBus s { s with ret := { s.ret with c := s.ret.c + BitVec.ofNat 32 (creditRise n s.ret) } } := .of_eq rfl rfl rfl
  have h2 := KeepsBus.ite (p := arm = true) (fun _ => (armNotice_bus _).after h1) fun _ => h1
  have hi (t : State) : KeepsBus t { t with intake := { t.intake with fault := false } } := .of_eq rfl rfl rfl
  have h3 := KeepsBus.ite (p := clear = true) (fun _ => (hi _).after h2) fun _ => h2
  exact KeepsBus.ite (fun _ => KeepsBus.after (KeepsBus.ite (fun _ => .refl _) fun _ => .of_within (pushControl_within ..)) h3)
    fun _ => h3

theorem answerControl_bus (wants : Bool) (k tag : Byte) (ready : Bool) (s : State) :
    KeepsBus s (answerControl wants k tag ready s) :=
  KeepsBus.ite (fun _ => .of_within (pushControl_within ..)) fun _ => .refl s

theorem queueHalt_bus (tag : Byte) (wants : Bool) (s : State) : KeepsBus s (queueHalt tag wants s) :=
  KeepsBus.ite (fun _ => .of_eq rfl rfl rfl) fun _ =>
    KeepsBus.ite (fun _ => KeepsBus.after (answerControl_bus ..) (.of_eq rfl rfl rfl))
      fun _ => KeepsBus.after (answerControl_bus ..) (.of_eq rfl rfl rfl)

theorem queueResume_bus (tag : Byte) (wants : Bool) (s : State) : KeepsBus s (queueResume tag wants s) :=
  KeepsBus.ite (fun _ => .of_eq rfl rfl rfl) fun _ =>
    KeepsBus.after (.of_within (takeHead_within _)) (KeepsBus.after (answerControl_bus ..) (.of_eq rfl rfl rfl))

theorem abortIdle_bus (tag : Byte) (s : State) : KeepsBus s (abortIdle tag s) :=
  KeepsBus.after (KeepsBus.of_eq (s := withdrawHost s) rfl rfl rfl) (withdrawHost_bus s)

theorem abortInFlight_bus (k : ReqKind) (s : State) : KeepsBus s (abortInFlight k s) := by
  have hs : KeepsBus s (abortStream s) := KeepsBus.ite (fun _ => .of_eq rfl rfl rfl) fun _ => endStream_bus ..
  cases k
  case streamIn => exact hs
  case streamOut => exact hs
  case fence =>
    unfold abortInFlight abortFence
    dsimp only
    split
    · exact endRequest_bus ..
    all_goals exact .refl s
  case linePoll => exact weighed_bus (KeepsBus.after (answerPlain_bus ..) (.of_eq rfl rfl rfl))
  all_goals exact .refl s

theorem queueAbort_bus (tag : Byte) (s : State) : KeepsBus s (queueAbort tag s) := by
  unfold queueAbort
  refine KeepsBus.ite (fun _ => .of_eq rfl rfl rfl) fun _ => ?_
  split
  · exact abortIdle_bus tag s
  · exact KeepsBus.ite (fun _ => abortIdle_bus tag s) fun _ => KeepsBus.ite (fun _ => .of_eq rfl rfl rfl) fun _ =>
      (abortInFlight_bus ..).after (.of_eq rfl rfl rfl)

theorem malformed_bus (o : BitVec 12) (es : List Bool) (s : State) : KeepsBus s (malformed o es s) :=
  KeepsBus.ite (fun _ => .of_eq rfl rfl rfl) fun _ => .refl s

theorem unknownKind_bus (k : Byte) (s : State) : KeepsBus s (unknownKind k s) :=
  KeepsBus.ite (fun _ => .refl s) fun _ => .of_eq rfl rfl rfl

theorem ringSet_bus (tag : Byte) (base : BitVec 64) (n : Nat) (s : State) : KeepsBus s (ringSet tag base n s) := by
  rw [ringSet_eq]
  exact .of_eq rfl rfl rfl

theorem appendRecord_bus (r : Record) (s : State) : KeepsBus s (appendRecord r s) :=
  KeepsBus.ite (fun _ => KeepsBus.after (.of_within (takeHead_within _)) (.of_eq rfl rfl rfl)) fun _ => .of_eq rfl rfl rfl

/-! ## One microsecond and every step -/

theorem tick_bus (s : State) : KeepsBus s (tick s) := by
  have h1 : KeepsBus s (cycleDue (countTimers (settle s))) :=
    KeepsBus.after (KeepsBus.ite (fun _ => readyExpiry_bus _) fun _ => .refl _) (.of_eq rfl rfl rfl)
  have h2 : KeepsBus s (heldDue (cycleDue (countTimers (settle s)))) := KeepsBus.after (.of_within (heldDue_within _)) h1
  have h3 : KeepsBus s (meterDue (heldDue (cycleDue (countTimers (settle s))))) :=
    KeepsBus.after (KeepsBus.ite (fun _ => masterHoldExpiry_bus _) fun _ => .refl _) h2
  have h4 : KeepsBus s (refreshDue (meterDue (heldDue (cycleDue (countTimers (settle s)))))) :=
    KeepsBus.after (KeepsBus.ite (fun _ => refreshExpiry_bus _) fun _ => .refl _) h3
  refine KeepsBus.after (u := tick s) ?_ (KeepsBus.after (.of_within (forChans_within ageDue_within _)) h4)
  unfold tick pulseDue
  split
  · exact .refl _
  · split
    · exact KeepsBus.ite (fun _ => releaseLine_bus _) fun _ => .refl _
    · exact KeepsBus.ite (fun _ => settleEnd_bus _) fun _ => .refl _
    · exact .refl _

theorem KeepsBus.of_next {s t u : State} (h : KeepsBus s u) (ht : (Host.Outcome.next u : Host.Outcome State Fault Refusal) = .next t) :
    KeepsBus s t := by
  cases ht
  exact h

theorem linkReset_bus (s : State) : KeepsBus s (linkReset s) := by
  obtain ⟨-, -, h, -⟩ := invariantsHoldAfterLinkReset
  exact .of_good h

theorem exec_bus (i : Instr) (s t : State) (h : exec i s = .next t) : KeepsBus s t := by
  cases i with
  | linkReset => exact (linkReset_bus s).of_next h
  | apertureWriteIgnored => exact (KeepsBus.refl s).of_next h
  | malformed o es => exact (malformed_bus o es s).of_next h
  | unknown k => exact (inWrite_bus (unknownKind_bus k.value s)).of_next h
  | queuedKindAppend r => exact (inWrite_bus (appendRecord_bus r.value s)).of_next h
  | ringSet tag base size => exact (inWrite_bus (ringSet_bus tag.value base size.toNat s)).of_next h
  | ringCredit tag w a c n => exact (inWrite_bus (ringCredit_bus tag.value w a c n.toNat s)).of_next h
  | queueHalt tag w => exact (inWrite_bus (queueHalt_bus tag.value w s)).of_next h
  | queueResume tag w => exact (inWrite_bus (queueResume_bus tag.value w s)).of_next h
  | queueAbort tag => exact (inWrite_bus (queueAbort_bus tag.value s)).of_next h
  | portRead => exact (whenTaken_bus (slotRequest_bus _ _) s).of_next h
  | portWrite => exact (whenTaken_bus (slotRequest_bus _ _) s).of_next h
  | memoryRead => exact (whenTaken_bus (slotRequest_bus _ _) s).of_next h
  | memoryWrite => exact (whenTaken_bus (slotRequest_bus _ _) s).of_next h
  | streamIn => exact (whenTaken_bus (takeStream_bus _) s).of_next h
  | streamOut => exact (whenTaken_bus (takeStream_bus _) s).of_next h
  | slotReset => exact (whenTaken_bus slotReset_bus s).of_next h
  | fence => exact (whenTaken_bus fence_bus s).of_next h
  | channelProgram => exact (whenTaken_bus channelProgram_bus s).of_next h
  | channelNext => exact (whenTaken_bus channelNext_bus s).of_next h
  | channelMaskSet => exact (whenTaken_bus channelMaskSet_bus s).of_next h
  | channelMaskClear => exact (whenTaken_bus channelMaskClear_bus s).of_next h
  | channelRequestSet => exact (whenTaken_bus (channelRequest_bus _) s).of_next h
  | channelRequestClear => exact (whenTaken_bus (channelRequest_bus _) s).of_next h
  | channelStatus => exact (whenTaken_bus channelStatus_bus s).of_next h
  | lineSet => exact (whenTaken_bus lineSet_bus s).of_next h
  | lineMaskSet => exact (whenTaken_bus (lineMask_bus _) s).of_next h
  | lineMaskClear => exact (whenTaken_bus (lineMask_bus _) s).of_next h
  | lineEndSpecific => exact (whenTaken_bus lineEndSpecific_bus s).of_next h
  | lineEndNonSpecific => exact (whenTaken_bus lineEndNonSpecific_bus s).of_next h
  | linePoll => exact (whenTaken_bus linePoll_bus s).of_next h
  | tableWriteWindow => exact (whenTaken_bus tableWriteWindow_bus s).of_next h
  | tableWriteMap => exact (whenTaken_bus tableWriteMap_bus s).of_next h
  | tableWriteSegment => exact (whenTaken_bus tableWriteSegment_bus s).of_next h
  | tableWriteSettings => exact (whenTaken_bus tableWriteSettings_bus s).of_next h
  | tableRead => exact (whenTaken_bus tableRead_bus s).of_next h
  | tableClear => exact (whenTaken_bus tableClear_bus s).of_next h
  | partReset => exact (whenTaken_bus partReset_bus s).of_next h
  | identify => exact (whenTaken_bus (fun _ => endRequest_bus _ _ _) s).of_next h
  | slotClockApply => exact (applyClock_bus s).of_next h
  | hostCycleEnd sense ready data => exact (lastClock_bus hostCycle sense ready data s).of_next h
  | unitCycleEnd ready data => exact (lastClock_bus unitCycleOf false ready data s).of_next h
  | refreshCycleEnd ready => exact (lastClock_bus refreshCycleOf false ready 0 s).of_next h
  | readyRelease data => exact (releaseReady_bus data s).of_next h
  | readyLimitExpiry => exact (readyExpiry_bus s).of_next h
  | cardCheckEdge b => exact (checkEdge_bus b s).of_next h
  | resetDurationEnd => exact (releaseLine_bus s).of_next h
  | settleEnd => exact (settleEnd_bus s).of_next h
  | refreshTimerExpiry => exact (refreshExpiry_bus s).of_next h
  | masterHoldLimit => exact (masterHoldExpiry_bus s).of_next h
  | dmaRequestRise c => exact (requestRise_bus c s).of_next h
  | dmaRequestFall c => exact (requestFall_bus c s).of_next h
  | stagingAgeLimit c => exact (KeepsBus.of_within (ageExpiry_within c s)).of_next h
  | hostWriteIssue => exact (issueWrite_bus s).of_next h
  | prefetchReadForm c => exact (prefetchForm_bus c s).of_next h
  | prefetchReadComplete c id r => exact (prefetchComplete_bus c id r s).of_next h
  | masterWriteCycle a w d => exact (masterWrite_bus a w d s).of_next h
  | masterHeldWritePost => exact (KeepsBus.of_within (postHeld_within s)).of_next h
  | masterWriteDecide => exact (KeepsBus.of_within (masterDecide_within s)).of_next h
  | masterReadCycle a w => exact (masterRead_bus a w s).of_next h
  | lineFillComplete r => exact (KeepsBus.of_within (fillComplete_within r s)).of_next h
  | interruptLineRise l => exact (lineRise_bus l s).of_next h
  | interruptLineFall l => exact (lineFall_bus l s).of_next h
  | streamStep => exact (streamStep_bus s).of_next h
  | streamReadForm => exact (streamForm_bus s).of_next h
  | streamReadComplete id r => exact (streamComplete_bus id r s).of_next h
  | returnRecordWrite => exact (writeNext_bus s).of_next h

/-- Settles O54: the front command, or one microsecond, on a state whose bus and cycle are those before the step. -/
theorem stepKeepsOneCycleForTheOwner : Obligations.StepKeepsOneCycleForTheOwner := by
  intro s t hb h
  unfold step at h
  split at h
  · exact ((tick_bus s).of_next h).good hb
  · exact (exec_bus _ _ t h).good hb

end Sys2Proof.Machine
end

section
/-! PROOF. Intake (R35, R160, R161): appends, discards, RING CREDIT, and the status word; and the records of a write (R174). -/

namespace Sys2Proof.Machine

set_option Elab.async false

/-! ## Discards (R161) -/

/-- A discard changes the intake record alone. -/
theorem discard_eq (k : DiscardCause) {s : State} (h : s.intake.discards ≤ 255) :
    discard k s = { s with intake := afterDiscard k s.intake } := by
  have hn : min 255 (s.intake.discards + 1) = if s.intake.discards < 255 then s.intake.discards + 1 else 255 := by
    split <;> omega
  unfold discard afterDiscard
  rw [hn]
  cases s.intake.owed <;> rfl

/-- A record of a write that is discarded. -/
theorem inWrite_discard {more : Bool} {event : State → State} {k : DiscardCause} {s : State} (hs : s.intake.discards ≤ 255)
    (he : event s = discard k s) :
    inWrite more event s = { s with intake := afterDiscard k s.intake, queue := recordLeaves more s.queue s.queue } := by
  rw [inWrite_eq he, discard_eq k hs]

theorem malformed_of_not_whole {offset : BitVec 12} {en : List Bool} (hp : offset.toNat < 0x800)
    (hw : wholePieces offset en = false) (s : State) : malformed offset en s = discard .malformed s := by
  have ht : touchesPort offset = true := by simpa [touchesPort] using hp
  simp [malformed, ht, hw]

theorem decodeWrite_outside {offset : BitVec 12} (h : 0x800 ≤ offset.toNat) (bytes : List (Option Byte)) :
    decodeWrite offset bytes = [.apertureWriteIgnored offset] := by
  have ht : touchesPort offset = false := by simpa [touchesPort] using h
  simp [decodeWrite, ht]

theorem decodeWrite_malformed {offset : BitVec 12} {bytes : List (Option Byte)} (h : offset.toNat < 0x800)
    (hw : wholePieces offset (bytes.map Option.isSome) = false) :
    decodeWrite offset bytes = [.malformed offset (bytes.map Option.isSome)] := by
  have ht : touchesPort offset = true := by simpa [touchesPort] using h
  simp [decodeWrite, ht, hw]

theorem unknownKind_of_not_known {kind : Byte} (h : knownKind kind = false) (s : State) :
    unknownKind kind s = discard .unknown s := by
  simp [unknownKind, h]

/-! ## Appends (R35, R37) -/

theorem appendRecord_of_room {r : Record} {s : State} (h : s.queue.records.length < 64) :
    appendRecord r s = { s with queue := { s.queue with
      records := s.queue.records ++ [r]
      finished := none
      exec := if s.queue.state = .running ∧ s.queue.exec = none then (s.queue.records ++ [r]).head?.map Exec.take
              else s.queue.exec } } := by
  rw [appendRecord, if_pos (show _ < Config.queueCapacity from h), takeHead_eq]
  rfl

theorem appendRecord_of_full {s : State} (r : Record) (h : 64 ≤ s.queue.records.length) : appendRecord r s = discard .full s := by
  rw [appendRecord, if_neg (show ¬ _ < Config.queueCapacity from Nat.not_lt.2 h)]

/-! ## The status word (R159, R174) -/

theorem statusWord_toNat (s : State) : (statusWord s).toNat = (64 - s.queue.records.length) +
    256 * (match s.queue.state with
      | .running => 0
      | .halted => 1
      | .faulted => 2) +
    (if s.ret.ringSet then 4096 else 0) + (if s.slot.held then 8192 else 0) + (if s.intake.fault then 16384 else 0) := by
  have hr : queueRoom s ≤ 64 := Nat.sub_le ..
  have hroom : queueRoom s = 64 - s.queue.records.length := rfl
  rw [statusWord, BitVec.toNat_ofNat, ← hroom]
  cases s.queue.state <;> simp only [QueueState.code, flagBit] <;> split <;> split <;> split <;> omega

/-- The four bytes of a word, by number. -/
theorem wordBytes_getD (w : Word) {n : Nat} (h : n < 4) : (wordBytes w).getD n 0 = w.extractLsb' (8 * n) 8 := by
  have hn : n = 0 ∨ n = 1 ∨ n = 2 ∨ n = 3 := by omega
  obtain rfl | rfl | rfl | rfl := hn <;> rfl

theorem apertureByte_eq (s : State) {offset : BitVec 12} {n : Nat} (h : offset.toNat = n) :
    apertureByte s offset =
      if 0x800 ≤ n ∧ n ≤ 0x803 then (statusWord s).extractLsb' (8 * (n - 0x800)) 8 else 0 := by
  rw [apertureByte, h]
  by_cases hn : 0x800 ≤ n ∧ n ≤ 0x803
  · have hmod : n % 4 = n - 0x800 := by omega
    rw [if_pos hn, if_pos (by omega), wordBytes_getD _ (by omega), hmod]
  · rw [if_neg hn, if_neg (by omega)]

theorem apertureRead_getElem (s : State) {offset : BitVec 12} {len i : Nat} (h : offset.toNat + len ≤ 4096) (hi : i < len) :
    (apertureRead s offset len)[i]? = some (if 0x800 ≤ offset.toNat + i ∧ offset.toNat + i ≤ 0x803 then
      (statusWord s).extractLsb' (8 * (offset.toNat + i - 0x800)) 8 else 0) := by
  have ho : (offset + BitVec.ofNat 12 i).toNat = offset.toNat + i := by
    rw [BitVec.toNat_add, BitVec.toNat_ofNat]
    omega
  rw [apertureRead, List.getElem?_map, List.getElem?_range hi, Option.map_some, apertureByte_eq s ho]

/-- Settles O4, by the outcome of each kind of write and the bytes of each read. -/
theorem intakeAppendsOrDiscards : Obligations.IntakeAppendsOrDiscards := by
  refine ⟨fun offset bytes s h => ⟨decodeWrite_outside h bytes, rfl⟩, fun offset bytes s h hs hw => ⟨decodeWrite_malformed h hw, ?bad⟩,
    fun kind more s hk hs => ?unknown, fun r more s h => ?append, fun r more s h hs => ?full, statusWord_toNat,
    fun s offset len h => ⟨by simp [apertureRead], fun i hi => apertureRead_getElem s h hi⟩⟩
  case bad => exact congrArg _ ((malformed_of_not_whole h hw s).trans (discard_eq _ hs))
  case unknown => exact congrArg _ (inWrite_discard hs (unknownKind_of_not_known hk s))
  case append => exact congrArg _ (inWrite_eq (appendRecord_of_room h))
  case full => exact congrArg _ (inWrite_discard hs (appendRecord_of_full r h))

/-! ## RING CREDIT (R164) -/

/-- The arm rule, by what is still to be credited. -/
theorem armNotice_eq (s : State) :
    armNotice s = { s with
      ret := { s.ret with armed := decide (uncredited s.ret = 0) }
      order := s.order ++ (if 0 < uncredited s.ret ∧ s.host.msiEnabled then [.write .msi 0 []] else []) } := by
  unfold armNotice
  by_cases h : 0 < uncredited s.ret
  · simp [h, Nat.pos_iff_ne_zero.1 h, sendMsi_eq]
  · simp [Nat.eq_zero_of_not_pos h]

theorem controlsFull_of_room {s : State} (h : s.queue.controls.length < 16) : controlsFull s = false :=
  decide_eq_false (Nat.not_le.2 h)

theorem controlsFull_of_full {s : State} (h : 16 ≤ s.queue.controls.length) : controlsFull s = true := decide_eq_true h

theorem answerCredit_eq (tag : Byte) (n : Nat) (s : State) :
    answerCredit tag n s = { s with queue :=
      (if s.queue.controls.length < 16 then
        claimPlace { s.queue with controls := s.queue.controls ++ [⟨0x31, tag, ⟨.ok, n, zeros8⟩, true, none⟩] }
      else s.queue) } := by
  unfold answerCredit
  by_cases h : s.queue.controls.length < 16
  · rw [controlsFull_of_room h, if_pos h]
    rfl
  · rw [controlsFull_of_full (Nat.not_lt.1 h), if_neg h]
    rfl

/-- RING CREDIT in any state. -/
theorem ringCredit_eq (tag : Byte) (wants arm clear : Bool) {number n : Nat} {s : State} (hn : n = creditRise number s.ret) :
    ringCredit tag wants arm clear number s = { s with
      ret := { s.ret with
        c := s.ret.c + BitVec.ofNat 32 n
        armed := if arm then decide (n = (s.ret.w - s.ret.c).toNat) else s.ret.armed }
      order := s.order ++
        (if arm ∧ n < (s.ret.w - s.ret.c).toNat ∧ s.host.msiEnabled then [.write .msi 0 []] else [])
      intake := { s.intake with fault := if clear then false else s.intake.fault }
      queue :=
        (if wants ∧ s.queue.controls.length < 16 then
          claimPlace { s.queue with controls := s.queue.controls ++ [⟨0x31, tag, ⟨.ok, n, zeros8⟩, true, none⟩] }
        else s.queue) } := by
  have hle : n ≤ (s.ret.w - s.ret.c).toNat := hn ▸ Nat.min_le_right ..
  have hleft : (s.ret.w - (s.ret.c + BitVec.ofNat 32 n)).toNat = (s.ret.w - s.ret.c).toNat - n := by
    rw [hn]
    exact uncredited_credit number s.ret
  have hzero : ((s.ret.w - s.ret.c).toNat - n = 0) = (n = (s.ret.w - s.ret.c).toNat) := by
    apply propext
    omega
  simp only [ringCredit, ← hn, armNotice_eq, answerCredit_eq, uncredited]
  cases wants <;> cases arm <;> cases clear <;> simp [hleft, hzero, -BitVec.toNat_sub]

/-- Settles O6: the rise is the statement's number, and RING CREDIT's one event is part of a write. -/
theorem ringCreditRaisesCAndArms : Obligations.RingCreditRaisesCAndArms := by
  intro tag wants arm clear more number n s hn
  exact congrArg _ (inWrite_eq (ringCredit_eq tag wants arm clear hn))

/-! ## Records written whole (R174) -/

theorem leWord_wordBytes (w : Word) :
    leWord (w.extractLsb' 0 8) (w.extractLsb' 8 8) (w.extractLsb' 16 8) (w.extractLsb' 24 8) = w := by
  unfold leWord
  apply BitVec.eq_of_getLsbD_eq
  intro i hi
  simp only [BitVec.getLsbD_append, BitVec.getLsbD_extractLsb']
  split
  · simp [*]
  · split
    · have : 8 + (i - 8) = i := by omega
      simp [*]
    · split
      · have : 16 + (i - 8 - 8) = i := by omega
        simp [*]
      · have h1 : 24 + (i - 8 - 8 - 8) = i := by omega
        have h2 : i - 8 - 8 - 8 < 8 := by omega
        simp [h1, h2]

theorem ofCode_code (k : ReqKind) : ReqKind.ofCode k.code = some k := by cases k <;> decide

/-- A record written whole is taken field by field. -/
theorem decodeRecord_encode (more : Bool) (r : Record) : decodeRecord more r.encode = .queuedKindAppend ⟨r, more⟩ := by
  simp only [decodeRecord, Record.encode, wordBytes, List.cons_append, List.nil_append, List.getD_cons_zero, List.getD_cons_succ,
    ofCode_code, leWord_wordBytes]

theorem encode_length (r : Record) : r.encode.length = 16 := rfl

theorem flatMap_encode_length (rs : List Record) : (rs.flatMap Record.encode).length = 16 * rs.length := by
  induction rs with
  | nil => rfl
  | cons r rs ih =>
    rw [List.flatMap_cons, List.length_append, encode_length, ih, List.length_cons]
    omega

theorem pieces_flatMap_encode (rs : List Record) : pieces rs.length (rs.flatMap Record.encode) = rs.map Record.encode := by
  induction rs with
  | nil => rfl
  | cons r rs ih =>
    rw [List.length_cons, pieces, List.flatMap_cons, List.take_left' (encode_length r), List.drop_left' (encode_length r), ih,
      List.map_cons]

theorem decodeRecords_encode (rs : List Record) :
    decodeRecords (rs.map Record.encode) =
      rs.dropLast.map (fun r => .queuedKindAppend ⟨r, true⟩) ++ rs.getLast?.toList.map (fun r => .queuedKindAppend ⟨r, false⟩) := by
  induction rs with
  | nil => rfl
  | cons r rs ih =>
    cases rs with
    | nil => simp [decodeRecords, decodeRecord_encode]
    | cons r' rs =>
      have hcons : decodeRecords ((r :: r' :: rs).map Record.encode) =
          decodeRecord true r.encode :: decodeRecords ((r' :: rs).map Record.encode) := rfl
      rw [hcons, ih, decodeRecord_encode]
      simp

/-- Settles O60: the write is whole pieces, each piece one record. -/
theorem wholeRecordsDecodeToThemselves : Obligations.WholeRecordsDecodeToThemselves := by
  intro rs offset hne hmod hfit
  have hpos : 0 < rs.length := List.length_pos_iff.2 hne
  have hport : touchesPort offset = true := by
    simp only [touchesPort, decide_eq_true_eq]
    omega
  have hlen : ((rs.flatMap Record.encode).map some).length = 16 * rs.length := by rw [List.length_map, flatMap_encode_length]
  have hwhole : wholePieces offset (((rs.flatMap Record.encode).map some).map Option.isSome) = true := by
    simp only [wholePieces, Bool.and_eq_true, decide_eq_true_eq, List.length_map, flatMap_encode_length]
    refine ⟨⟨⟨⟨hmod, by omega⟩, by omega⟩, ?_⟩, by omega⟩
    simp
  have hbytes : ((rs.flatMap Record.encode).map some).map (fun b => b.getD 0) = rs.flatMap Record.encode := by
    simp [Function.comp_def]
  have hpieces : 16 * rs.length / 16 = rs.length := by omega
  rw [decodeWrite, if_pos hport, if_pos hwhole, hlen, hbytes, hpieces, pieces_flatMap_encode, decodeRecords_encode]

end Sys2Proof.Machine
end

section
/-! PROOF. Queue control (R43, R44, R47 to R50): what a halt, a resume and an abort leave of the queue and of the request in flight, and what
weighing the lines afresh leaves of a board with no poll. -/

namespace Sys2Proof.Machine

set_option Elab.async false

/-! ## Weighing the lines with no poll (R136, R137, R139) -/

theorem dropDelivery_irq (s : State) : (dropDelivery s).irq = { s.irq with delivery := (dropDelivery s).irq.delivery } := by
  unfold dropDelivery
  split
  · split <;> rfl
  · rfl

theorem selectCandidate_irq (s : State) : (selectCandidate s).irq = { s.irq with delivery := (selectCandidate s).irq.delivery } := by
  unfold selectCandidate
  split
  · split
    · rfl
    · simp only [State.putIrq_irq, makeDrain_irq]
  · rfl

theorem postReady_irq (s : State) : (postReady s).irq = { s.irq with delivery := (postReady s).irq.delivery } := by
  unfold postReady
  split
  · split <;> rfl
  · rfl

theorem answerPoll_none {s : State} (h : s.irq.poll = none) : answerPoll s = s := by simp [answerPoll, h]

theorem repoll_none {s : State} (h : s.irq.poll = none) (hw : s.irq.pollWaiting = false) : repoll s = s := by simp [repoll, h, hw]

/-- With no poll selected and none waiting, weighing settles the candidate alone. -/
theorem weighLines_unpolled {s : State} (h : s.irq.poll = none) (hw : s.irq.pollWaiting = false) :
    weighLines s = postReady (selectCandidate (dropDelivery s)) := by
  have hd := dropDelivery_irq s
  have hp : (dropDelivery s).irq.poll = none := by rw [hd]; exact h
  rw [weighLines, repoll_none hp (by rw [hd]; exact hw), answerPoll_none hp]

theorem weighLines_unpolled_within {s : State} (h : s.irq.poll = none) (hw : s.irq.pollWaiting = false) :
    Within { irq := true, staging := true, master := true, order := true } s (weighLines s) := by
  rw [weighLines_unpolled h hw]
  exact ((dropDelivery_within s).seq (selectCandidate_within _) (k := { irq := true, staging := true, master := true, order := true })).seq
    (postReady_within _)

theorem weighLines_unpolled_irq {s : State} (h : s.irq.poll = none) (hw : s.irq.pollWaiting = false) :
    (weighLines s).irq = { s.irq with delivery := (weighLines s).irq.delivery } := by
  rw [weighLines_unpolled h hw, postReady_irq, selectCandidate_irq, dropDelivery_irq]

/-! ## Control answers (R46) -/

/-- The claim does not look at the queue state. -/
theorem claimPlace_withState (q : Queue) (x : QueueState) : claimPlace { q with state := x } = { claimPlace q with state := x } := by
  have hp : (claimPlace { q with state := x }).place = (claimPlace q).place := by
    simp only [claimPlace_place]
    rfl
  rw [claimPlace_eq { q with state := x }, hp]
  conv_rhs => rw [claimPlace_eq q]

theorem answerControl_eq (wants : Bool) (k tag : Byte) (ready : Bool) (s : State) :
    answerControl wants k tag ready s = { s with queue := withAnswer wants k tag ready s.queue } := by
  cases wants <;> rfl

/-- An answer is asked for and the list has no room. -/
theorem wants_full {wants : Bool} {s : State} (hw : wants = true) (h : 16 ≤ s.queue.controls.length) :
    (wants && controlsFull s) = true := by rw [hw, controlsFull_of_full h, Bool.and_self]

theorem not_wants_full {wants : Bool} {s : State} (h : wants = false ∨ s.queue.controls.length < 16) :
    (wants && controlsFull s) = false := by
  obtain rfl | h := h
  · rfl
  · rw [controlsFull_of_room h, Bool.and_false]

/-! ## QUEUE HALT (R43) -/

section
variable {tag : Byte} {wants : Bool} {s : State}

theorem queueHalt_full (hw : wants = true) (h : 16 ≤ s.queue.controls.length) : queueHalt tag wants s = discard .full s := by
  rw [queueHalt, if_pos (wants_full hw h)]

theorem queueHalt_waits (h : wants = false ∨ s.queue.controls.length < 16) (hw : haltWaits s = true) :
    queueHalt tag wants s = { s with queue := withAnswer wants 0x32 tag false { s.queue.settled with waitHalt := true } } := by
  rw [queueHalt, if_neg (by rw [not_wants_full h]; decide), if_pos hw, answerControl_eq]
  rfl

theorem queueHalt_now (h : wants = false ∨ s.queue.controls.length < 16) (hw : haltWaits s = false) :
    queueHalt tag wants s =
      { s with queue := withAnswer wants 0x32 tag true { s.queue.settled with state := haltedState s.queue } } := by
  rw [queueHalt, if_neg (by rw [not_wants_full h]; decide), if_neg (by rw [hw]; decide), answerControl_eq]
  rfl

end

/-- Settles O7: a halt waits exactly behind a request in flight of a RUNNING queue that no halt waits for yet. -/
theorem queueHaltActsByQueueState : Obligations.QueueHaltActsByQueueState := by
  intro tag wants more s
  refine ⟨fun hw h hs => congrArg _ (inWrite_discard hs (queueHalt_full hw h)), fun h => ⟨?idle, ?waits, ?again, ?stopped⟩⟩
  case idle =>
    intro hr he
    have hstate : haltedState s.queue = .halted := if_pos ⟨hr, he⟩
    rw [← hstate]
    exact congrArg _ (inWrite_eq (queueHalt_now h (by simp [haltWaits, he])))
  case waits =>
    intro hr he hw
    exact congrArg _ (inWrite_eq (queueHalt_waits h (by simp [haltWaits, hr, hw, Option.isSome_iff_ne_none, he])))
  case again =>
    intro hr he hw
    have hstate : haltedState s.queue = s.queue.state := if_neg fun k => he k.2
    have hn := queueHalt_now (tag := tag) h (by simp [haltWaits, hw])
    rw [hstate] at hn
    exact congrArg _ (inWrite_eq hn)
  case stopped =>
    intro hr
    have hstate : haltedState s.queue = s.queue.state := if_neg fun k => hr k.1
    have hn := queueHalt_now (tag := tag) h (by simp [haltWaits, hr])
    rw [hstate] at hn
    exact congrArg _ (inWrite_eq hn)

/-! ## QUEUE RESUME (R44) -/

theorem withAnswer_withState (wants : Bool) (k tag : Byte) (ready : Bool) (q : Queue) (x : QueueState) :
    withAnswer wants k tag ready { q with state := x } = { withAnswer wants k tag ready q with state := x } := by
  cases wants
  · rfl
  · exact claimPlace_withState { q with controls := q.controls ++ [⟨k, tag, ⟨.ok, 0, zeros8⟩, ready, none⟩] } x

theorem withAnswer_exec (wants : Bool) (k tag : Byte) (ready : Bool) (q : Queue) : (withAnswer wants k tag ready q).exec = q.exec := by
  cases wants
  · rfl
  · exact claimPlace_exec _

theorem withAnswer_records (wants : Bool) (k tag : Byte) (ready : Bool) (q : Queue) :
    (withAnswer wants k tag ready q).records = q.records := by
  cases wants
  · rfl
  · exact claimPlace_records _

theorem queueResume_of_room {tag : Byte} {wants : Bool} {s : State} (h : wants = false ∨ s.queue.controls.length < 16) :
    queueResume tag wants s = { s with queue := { withAnswer wants 0x33 tag true s.queue.settled with
      state := .running
      exec := if s.queue.exec = none then s.queue.records.head?.map Exec.take else s.queue.exec } } := by
  have hq := withAnswer_withState wants 0x33 tag true s.queue.settled .running
  rw [queueResume, if_neg (by rw [not_wants_full h]; decide), answerControl_eq, takeHead_eq]
  show ({ s with queue := _ } : State) = _
  simp only [State.putQueue]
  have hkind : queueResumeCode = 0x33 := rfl
  simp only [hkind, hq, withAnswer_exec, withAnswer_records, true_and]
  rfl

/-- Settles O8: the queue's one change is the answer, the state and the head taken. -/
theorem queueResumeRunsTheQueue : Obligations.QueueResumeRunsTheQueue := by
  intro tag wants more s
  refine ⟨fun hw h hs => congrArg _ (inWrite_discard hs ?_), fun h => ⟨_, rfl, ?_, ?_⟩⟩
  · rw [queueResume, if_pos (wants_full hw h)]
  · rw [inWrite_eq (queueResume_of_room h)]
    constructor <;> intro k <;> first | rfl | cases k
  · rw [inWrite_eq (queueResume_of_room h)]

/-! ## QUEUE ABORT with nothing started (R47, R50) -/

theorem withdrawHost_eq (s : State) :
    withdrawHost s = { s with
      xfer := if s.arb.hostWaiting then none else s.xfer
      arb := if s.arb.hostWaiting then { s.arb with hostWaiting := false, hostTurn := false } else s.arb } := by
  unfold withdrawHost
  split <;> rfl

/-- QUEUE ABORT with no request in flight that has started. -/
theorem abortIdle_eq (tag : Byte) (s : State) :
    abortIdle tag s = { s with
      queue := claimPlace { s.queue with
          records := [], exec := none, state := .halted, waitHalt := false, waitAbort := false, finished := none
          controls := s.queue.controls.map (fun c => { c with ready := true }) ++
            [⟨0x34, tag, ⟨.ok, s.queue.records.length,
              match justFinished s.queue with
              | some r => [1, r.kind.code, r.tag, 0, 0, 0, 0, 0]
              | none => zeros8⟩, true, none⟩] }
      stream := { s.stream with active := none }
      xfer := if s.arb.hostWaiting then none else s.xfer
      arb := if s.arb.hostWaiting then { s.arb with hostWaiting := false, hostTurn := false } else s.arb } := by
  rw [abortIdle, withdrawHost_eq]
  rfl

theorem queueAbort_full {tag : Byte} {s : State} (h : 16 ≤ s.queue.controls.length) : queueAbort tag s = discard .full s := by
  rw [queueAbort, if_pos (controlsFull_of_full h)]

theorem queueAbort_notStarted {tag : Byte} {s : State} (h : s.queue.controls.length < 16)
    (hn : ∀ e, s.queue.exec = some e → e.phase = .taken ∨ e.phase = .waiting) : queueAbort tag s = abortIdle tag s := by
  rw [queueAbort, if_neg (by rw [controlsFull_of_room h]; decide)]
  split
  · rfl
  · rename_i e he
    rw [if_pos (by simpa [Exec.notStarted] using hn e he)]

/-- Settles O9: with nothing started the abort empties the queue, and what just finished is the stream the statement names. -/
theorem queueAbortEmptiesAnUnstartedQueue : Obligations.QueueAbortEmptiesAnUnstartedQueue := by
  intro tag more s last hlast
  have hj : last = justFinished s.queue := hlast
  subst hj
  refine ⟨fun h hs => congrArg _ (inWrite_discard hs (queueAbort_full h)), fun h hn => ?_⟩
  have hq := inWrite_eq (more := more) ((queueAbort_notStarted (tag := tag) h hn).trans (abortIdle_eq tag s))
  refine ⟨_, congrArg Host.Outcome.next hq, ?_, rfl, rfl, rfl, rfl⟩
  constructor <;> intro k <;> first | rfl | cases k

/-! ## QUEUE ABORT behind a request that has started (R47 to R50) -/

theorem abortBehind_eq (tag : Byte) (e : Exec) (s : State) : abortBehind tag e s = behindAbort tag e s := by
  cases h : s.queue.waitAbort <;> simp [abortBehind, behindAbort, h] <;> rfl

theorem behindAbort_within (tag : Byte) (e : Exec) (s : State) : Within { queue := true } s (behindAbort tag e s) :=
  putQueue_within _ s

theorem behindAbort_exec (tag : Byte) (e : Exec) (s : State) : (behindAbort tag e s).queue.exec = s.queue.exec := claimPlace_exec _

theorem behindAbort_control {tag : Byte} {e : Exec} {s : State} (h : s.queue.place = .control) :
    (behindAbort tag e s).queue.place = .control := claimPlace_of_control h

theorem queueAbort_started {tag : Byte} {e : Exec} {s : State} (h : s.queue.controls.length < 16) (he : s.queue.exec = some e)
    (hp : e.phase = .active ∨ e.phase = .ended) :
    queueAbort tag s =
      if s.queue.waitAbort || e.phase = .ended then behindAbort tag e s
      else abortInFlight e.request.kind (behindAbort tag e s) := by
  rw [queueAbort, if_neg (by rw [controlsFull_of_room h]; decide)]
  simp only [he, abortBehind_eq]
  rw [if_neg]
  rcases hp with hp | hp <;> simp [Exec.notStarted, hp]

/-- A response that waits goes ahead of an answer that took the place earlier in the same write (R46, R160). -/
theorem responseFirst_of_ends {r : Record} {n : Nat} {d : List Byte} {s b u : State} {more : Bool} (h : Ends r .aborted n d b u)
    (hb : s.queue.place = .control → b.queue.place = .control) :
    ResponseFirst r s { u with queue := recordLeaves more s.queue u.queue } := by
  intro hp ht hr
  obtain ⟨-, hq⟩ := h.responds hr
  have hplace : u.queue.place = .control := by rw [hq]; simp [hb hp]
  have hwaits : ∃ e, u.queue.exec = some e ∧ e.phase = .ended ∧ e.responds = true := ⟨_, by rw [hq], rfl, rfl⟩
  simp only [recordLeaves]
  rw [if_pos ⟨hplace, fun _ => ht⟩, if_pos hwaits]

/-- The open piece is decided, if there is one (R155). -/
theorem closePiece_of_active {s : State} {r : StreamRec} (h : s.stream.active = some r) :
    closePiece s = { s with
      stream := { s.stream with active := some { r with piece := none } }
      order := s.order ++ (match r.piece with
        | some p => [.write .piece p.host p.bytes]
        | none => []) } := by
  unfold closePiece
  simp only [h]
  cases hp : r.piece with
  | some p => rfl
  | none =>
    obtain ⟨⟩ := r
    cases hp
    simp [← h]

/-- The state in which an ended stream's outcome stands: its piece decided, its host path no longer waiting, what it read ahead gone
(R155 to R158). -/
def streamClosed (r : StreamRec) (s : State) : State :=
  { s with
    xfer := if s.arb.hostWaiting then none else s.xfer
    arb := if s.arb.hostWaiting then { s.arb with hostWaiting := false, hostTurn := false } else s.arb
    stream := { s.stream with active := some { r with piece := none, chunks := [], step := [] } }
    order := s.order ++ (match r.piece with
      | some p => [.write .piece p.host p.bytes]
      | none => []) }

theorem endStream_eq {st : Status} {hf : Bool} {s : State} {r : StreamRec} (h : s.stream.active = some r) :
    endStream st hf s =
      endWith hf st r.moved (streamData r.lastSeg (endingNextOf st r) r.firstFault r.used) (streamClosed r s) := by
  have hw : (withdrawHost s).stream.active = some r := by rw [withdrawHost_eq]; exact h
  unfold endStream
  rw [h]
  simp only [closePiece_of_active hw]
  rw [withdrawHost_eq]
  rfl

theorem streamClosed_within (r : StreamRec) (s : State) :
    Within { stream := true, order := true, arb := true, xfer := true } s (streamClosed r s) := by
  constructor <;> intro h <;> first | rfl | cases h

theorem streamClosed_hostWaiting (r : StreamRec) (s : State) : (streamClosed r s).arb.hostWaiting = false := by
  cases h : s.arb.hostWaiting <;> simp [streamClosed, h]

/-- Past the checks, the abort acts on the request in flight by its kind. -/
theorem queueAbort_active {tag : Byte} {e : Exec} {s : State} (h : s.queue.controls.length < 16) (he : s.queue.exec = some e)
    (hp : e.phase = .active) (hw : s.queue.waitAbort = false) :
    queueAbort tag s = abortInFlight e.request.kind (behindAbort tag e s) := by
  rw [queueAbort_started h he (.inl hp), if_neg]
  simp [hw, hp]

theorem queueAbort_goesOn {tag : Byte} {e : Exec} {s : State} (h : s.queue.controls.length < 16) (he : s.queue.exec = some e)
    (hp : e.phase = .active ∨ e.phase = .ended)
    (hk : s.queue.waitAbort = true ∨ e.phase = .ended ∨ e.request.kind ∉ [.fence, .linePoll, .streamIn, .streamOut]) :
    queueAbort tag s = behindAbort tag e s := by
  rw [queueAbort_started h he hp]
  split
  · rfl
  · rename_i hn
    have hkind : e.request.kind ∉ [ReqKind.fence, .linePoll, .streamIn, .streamOut] := by
      rcases hk with hk | hk | hk
      · exact absurd (by simp [hk]) hn
      · exact absurd (by simp [hk]) hn
      · exact hk
    cases hkd : e.request.kind
    case fence | linePoll | streamIn | streamOut => exact absurd (by simp [hkd]) hkind
    all_goals rfl

/-- A stream is aborted as such, in either direction (R48, R158). -/
theorem abortInFlight_stream {k : ReqKind} (h : k = .streamIn ∨ k = .streamOut) (s : State) : abortInFlight k s = abortStream s := by
  rcases h with rfl | rfl <;> rfl

/-- Settles O10: the abort's own change is `behindAbort`, and what it does to the request in flight ends it by its kind. -/
theorem queueAbortWaitsForStartedWork : Obligations.QueueAbortWaitsForStartedWork := by
  intro tag more s e hroom he hp
  refine ⟨fun hk => congrArg _ (inWrite_eq (queueAbort_goesOn hroom he hp hk)), fun hw ha => ?_⟩
  have hact := queueAbort_active (tag := tag) hroom he ha hw
  have hexec : (behindAbort tag e s).queue.exec = some e := (behindAbort_exec tag e s).trans he
  refine ⟨?fence, ?poll, ?step, ?between⟩
  case fence =>
    intro n w hk hwork
    have hf : queueAbort tag s = endRequest .aborted n zeros8 (behindAbort tag e s) := by
      rw [hact, hk, abortInFlight, abortFence, workOf, hexec]
      simp only [hwork]
    have hends := endRequest_ends .aborted n zeros8 _ e hexec
    exact ⟨_, _, congrArg Host.Outcome.next (inWrite_eq hf), hends, rfl, responseFirst_of_ends hends behindAbort_control⟩
  case poll =>
    intro hk
    have hf : queueAbort tag s = weighLines (endRequest .aborted 0 zeros8
        { behindAbort tag e s with irq := { s.irq with poll := none, pollWaiting := false } }) := by
      rw [hact, hk]
      rfl
    have hends := endRequest_ends .aborted 0 zeros8
      { behindAbort tag e s with irq := { s.irq with poll := none, pollWaiting := false } } e hexec
    generalize hu : endRequest .aborted 0 zeros8
      { behindAbort tag e s with irq := { s.irq with poll := none, pollWaiting := false } } = u at hf hends
    have hirq : u.irq = { s.irq with poll := none, pollWaiting := false } := hends.frame.irq rfl
    have hpoll : u.irq.poll = none := by rw [hirq]
    have hwait : u.irq.pollWaiting = false := by rw [hirq]
    have hwithin := weighLines_unpolled_within hpoll hwait
    have hweigh := weighLines_unpolled_irq hpoll hwait
    have hq : (weighLines u).queue = u.queue := hwithin.queue rfl
    refine ⟨_, u, congrArg Host.Outcome.next (inWrite_eq hf), hends, ?_, ?_, ?_, ?_, ?_⟩
    · exact hwithin.seq (putQueue_within _ _)
    · rw [hq]
    · rw [hq]
      exact responseFirst_of_ends hends behindAbort_control
    · show (weighLines u).irq.lines = _
      rw [hweigh, hirq]
    · show (weighLines u).irq.poll = _
      rw [hweigh, hirq]
  case step =>
    intro x hk ho hx
    have hf : queueAbort tag s = { behindAbort tag e s with xfer := some { x with aborted := x.aborted || !x.stopped } } := by
      rw [hact, abortInFlight_stream hk, abortStream, if_pos (by exact ho)]
      have hxb : (behindAbort tag e s).xfer = some x := hx
      rw [hxb]
      rfl
    exact congrArg _ (inWrite_eq hf)
  case between =>
    intro r hk ho hr
    have hf : queueAbort tag s = endWith false .aborted r.moved (streamData r.lastSeg 0xFF r.firstFault r.used)
        (streamClosed r (behindAbort tag e s)) := by
      rw [hact, abortInFlight_stream hk, abortStream, if_neg (by exact ho), endStream_eq (by exact hr)]
      rfl
    have hends := endWith_ends false .aborted r.moved (streamData r.lastSeg 0xFF r.firstFault r.used)
      (streamClosed r (behindAbort tag e s)) e hexec
    have hclosed := streamClosed_within r (behindAbort tag e s)
    refine ⟨_, _, _, congrArg Host.Outcome.next (inWrite_eq hf), ?_, hends, rfl, responseFirst_of_ends hends behindAbort_control,
      rfl, rfl, streamClosed_hostWaiting r _⟩
    exact (((behindAbort_within tag e s).seq hclosed (k := Touch.streaming)).seq hends.frame (k := Touch.streaming)).seq
      (putQueue_within _ _)

end Sys2Proof.Machine
end

section
/-! PROOF. What an event that decides writes leaves of the order (R103): what stood before keeps its place, and what is new stands in channel
order where the event is one. -/

namespace Sys2Proof.Machine

set_option Elab.async false

/-! ## Events that only add places -/

/-- The event leaves every place as it stood and adds its own behind them. -/
structure Extends (s t : State) : Prop where
  order : ∃ new, t.order = s.order ++ new

theorem Extends.of_eq {s t : State} (h : t.order = s.order) : Extends s t := ⟨[], by rw [h, List.append_nil]⟩

theorem Extends.refl (s : State) : Extends s s := .of_eq rfl

theorem Extends.of_within {m : Touch} {s t : State} (h : Within m s t) (hm : m.order = false := by rfl) : Extends s t :=
  .of_eq (h.order hm)

/-- The last event first. -/
theorem Extends.after {s t u : State} (k : Extends t u) (h : Extends s t) : Extends s u := by
  obtain ⟨a, ha⟩ := h.order
  obtain ⟨b, hb⟩ := k.order
  exact ⟨a ++ b, by rw [hb, ha, List.append_assoc]⟩

theorem Extends.ite {s t u : State} {p : Prop} [Decidable p] (h : p → Extends s t) (k : ¬ p → Extends s u) :
    Extends s (if p then t else u) := by
  split
  · exact h ‹_›
  · exact k ‹_›

theorem decideWrite_extends (src : WriteSource) (a : Nat) (bs : List Byte) (s : State) : Extends s (decideWrite src a bs s) :=
  ⟨_, rfl⟩

theorem closeRun_extends (c : Chan) (s : State) : Extends s (closeRun c s) := by
  unfold closeRun
  split
  · exact .refl s
  · exact Extends.after (decideWrite_extends ..) (.of_eq rfl)

theorem flushDemand_extends (c : Chan) (s : State) : Extends s (flushDemand c s) :=
  Extends.ite (fun _ => Extends.ite (fun _ => closeRun_extends c s) fun _ => Extends.after (.of_within (putStage_within ..)) (closeRun_extends c s))
    fun _ => .refl s

theorem forChans_extends {f : Chan → State → State} (h : ∀ c s, Extends s (f c s)) (s : State) : Extends s (forChans f s) :=
  (h ..).after ((h ..).after ((h ..).after ((h ..).after ((h ..).after ((h ..).after (h .c0 s))))))

theorem decideGroup_extends (s : State) : Extends s (decideGroup s) := by
  unfold decideGroup
  split
  · exact .refl s
  · exact Extends.after (decideWrite_extends ..) (.of_eq rfl)

theorem decideGroups_extends (n : Nat) (s : State) : Extends s (decideGroups n s) := by
  induction n generalizing s with
  | zero => exact .refl s
  | succ n ih => exact (ih _).after (decideGroup_extends s)

theorem decideAll_extends (s : State) : Extends s (decideAll s) := decideGroups_extends ..

theorem masterDecide_extends (s : State) : Extends s (masterDecide s) :=
  Extends.ite (fun _ => decideGroup_extends s) fun _ => .refl s

theorem drainMark_extends (s : State) : Extends s (drainMark s) :=
  Extends.ite (fun _ => .refl s) fun _ => Extends.after (.of_within (putMaster_within ..)) (decideAll_extends s)

theorem makeDrain_extends (d : PerChan Bool) (m : Bool) (s : State) : Extends s (makeDrain d m s) := by
  have h := forChans_extends (f := fun c x => if d.get c then flushDemand c x else x)
    (fun c x => Extends.ite (fun _ => flushDemand_extends c x) fun _ => .refl x) s
  exact Extends.ite (fun _ => (drainMark_extends _).after h) fun _ => h

theorem pollSelect_extends (s : State) : Extends s (pollSelect s) := by
  unfold pollSelect
  split
  · exact .of_within (answerPlain_within _ s)
  · exact Extends.after (.of_within (putIrq_within ..)) (makeDrain_extends ..)

theorem repoll_extends (s : State) : Extends s (repoll s) := by
  unfold repoll
  split
  · exact Extends.ite (fun _ => .refl s) fun _ => Extends.after (pollSelect_extends _) (.of_eq rfl)
  · exact Extends.ite (fun _ => Extends.after (pollSelect_extends _) (.of_eq rfl)) fun _ => .refl s

theorem selectCandidate_extends (s : State) : Extends s (selectCandidate s) := by
  unfold selectCandidate
  refine Extends.ite (fun _ => ?_) fun _ => .refl s
  split
  · exact .refl s
  · exact Extends.after (.of_within (putIrq_within ..)) (makeDrain_extends ..)

theorem weighLines_extends (s : State) : Extends s (weighLines s) :=
  Extends.after (.of_within (postReady_within _)) (Extends.after (selectCandidate_extends _) (Extends.after
    (.of_within (answerPoll_within _)) (Extends.after (repoll_extends _) (.of_within (dropDelivery_within s)))))

/-! ## Channel order (R103) -/

theorem placeRank_of_isRunOf {c : Chan} {i : OrderItem} (h : i.isRunOf c = true) : placeRank i = c.num := by
  obtain ⟨src, a, bs⟩ | src := i
  · cases src <;> simp_all [OrderItem.isRunOf, placeRank]
  · simp [OrderItem.isRunOf] at h

theorem placeRank_of_not_run {i : OrderItem} (h : ∀ c, i.isRunOf c = false) : placeRank i = 8 := by
  obtain ⟨src, a, bs⟩ | src := i
  · cases src with
    | run d => simpa [OrderItem.isRunOf] using h d
    | _ => rfl
  · rfl

theorem placeRank_le (i : OrderItem) : placeRank i ≤ 8 := by
  by_cases h : ∃ c, i.isRunOf c = true
  · obtain ⟨c, hc⟩ := h
    rw [placeRank_of_isRunOf hc]
    cases c <;> decide
  · rw [placeRank_of_not_run fun c => by simpa using not_exists.1 h c]

theorem mem_Chan_all (c : Chan) : c ∈ Chan.all := by cases c <;> decide

theorem Chan.all_sorted : Chan.all.Pairwise (fun c d => c.num ≤ d.num) := by decide

/-- Places put in channel order stand channel by channel, with the master port's behind them. -/
theorem channelOrder_inChannelOrder (o : List OrderItem) : InChannelOrder (channelOrder o) := by
  have hrun {c : Chan} {i : OrderItem} (h : i ∈ o.filter (OrderItem.isRunOf c)) : placeRank i = c.num :=
    placeRank_of_isRunOf (List.mem_filter.1 h).2
  have hrest {i : OrderItem} (h : i ∈ o.filter (fun i => Chan.all.all (fun c => !i.isRunOf c))) : placeRank i = 8 :=
    placeRank_of_not_run fun c => by simpa using List.all_eq_true.1 (List.mem_filter.1 h).2 c (mem_Chan_all c)
  refine List.pairwise_append.2 ⟨List.pairwise_flatMap.2 ⟨fun c _ => ?_, Chan.all_sorted.imp fun hcd i hi j hj => ?_⟩, ?_,
    fun i _ j hj => (placeRank_le i).trans_eq (hrest hj).symm⟩
  · exact List.pairwise_of_forall_mem_list fun i hi j hj => ((hrun hi).trans (hrun hj).symm).le
  · rw [hrun hi, hrun hj]
    exact hcd
  · exact List.pairwise_of_forall_mem_list fun i hi j hj => ((hrest hi).trans (hrest hj).symm).le

/-- What an event in channel order decides. -/
theorem inChannelOrder_new {event : State → State} {s : State} (h : Extends s (event s)) :
    ∃ new, (inChannelOrder event s).order = s.order ++ new ∧ InChannelOrder new := by
  obtain ⟨new, hn⟩ := h.order
  exact ⟨_, inChannelOrder_order hn, channelOrder_inChannelOrder new⟩

end Sys2Proof.Machine
end

section
/-! PROOF. The management requests (R168 to R171): the merged candidate and its owner's check, the words read, the reset values. -/

namespace Sys2Proof.Machine

set_option Elab.async false

/-! ## A record taken, and what its execution leaves -/

/-- A command of a record that has been taken, from the body it executes to the outcome that body comes to in a state that still has the
record taken. -/
theorem ends_of_taken {c : Instr} {row : Record → Bool} {body : Record → State → State} {s v : State} {r : Record} {st : Status} {n : Nat}
    {d : List Byte} (hc : exec c s = .next (whenTaken row body s)) (ht : takenRecord s = some r) (hr : row r = true)
    (hv : takenRecord v = some r) (hb : body r (setPhase .active s) = endRequest st n d (setPhase .active v)) :
    ∃ t, exec c s = .next t ∧ Ends r st n d v t :=
  ⟨_, hc.trans (congrArg _ ((whenTaken_taken body ht hr).trans hb)), endRequest_of_taken st n d hv⟩

/-- What an executed record leaves but for its own answer: the state `w` that the answer is given in, with the queue as it was. -/
theorem endRequest_of_takenThen {s w : State} {r : Record} (st : Status) (n : Nat) (d : List Byte) (ht : takenRecord s = some r)
    (hq : w.queue = (setPhase .active s).queue) : Ends r st n d { w with queue := s.queue } (endRequest st n d w) := by
  have hw : w = setPhase .active { w with queue := s.queue } := by
    have h : setPhase .active { w with queue := s.queue } = { w with queue := (setPhase .active s).queue } := rfl
    rw [h, ← hq]
  have h := endRequest_of_taken (s := { w with queue := s.queue }) st n d ht
  rwa [← hw] at h

/-- An event that leaves the queue leaves it as the execution found it. -/
theorem Within.withQueue {m : Touch} {s w : State} (h : Within m (setPhase .active s) w) :
    Within m s { w with queue := s.queue } where
  pending e := h.pending e
  slot e := h.slot e
  xfer e := h.xfer e
  windows e := h.windows e
  queue _ := rfl
  arb e := h.arb e
  refresh e := h.refresh e
  dma e := h.dma e
  map e := h.map e
  staging e := h.staging e
  order e := h.order e
  master e := h.master e
  irq e := h.irq e
  segments e := h.segments e
  stream e := h.stream e
  ret e := h.ret e
  intake e := h.intake e
  settings e := h.settings e
  pins e := h.pins e
  host e := h.host e

/-! ## The candidate (R168) -/

theorem candidateOf_eq {r : Record} (h : wordNumber r ≤ 3) (old : Entry) (m0 m1 m2 m3 : Word) :
    candidateOf r old m0 m1 m2 m3 = (candidate old r).keep m0 m1 m2 m3 := by
  have hw : wordNumber r = field r.addr 16 8 := rfl
  have h4 : wordNumber r = 0 ∨ wordNumber r = 1 ∨ wordNumber r = 2 ∨ wordNumber r = 3 := by omega
  rw [hw] at h4
  simp only [candidateOf, candidate, Entry.keep, Entry.merge, candidateWord, hw]
  rcases h4 with h4 | h4 | h4 | h4 <;> simp [h4, Entry.putWord, Entry.word, mergeWord]

theorem keep_ones (e : Entry) : e.keep 0xFFFFFFFF 0xFFFFFFFF 0xFFFFFFFF 0xFFFFFFFF = e := by
  have h (w : Word) : w &&& 0xFFFFFFFF = w := BitVec.and_allOnes
  simp only [Entry.keep, h]

/-- An entry that stands at a number of a table. -/
theorem table_at {n i : Nat} {v : Vector Entry n} {old : Entry} (h : v.toList[i]? = some old) :
    i < n ∧ v.toList.getD i Entry.zero = old := by
  obtain ⟨hi, hg⟩ := List.getElem?_eq_some_iff.1 h
  refine ⟨by simpa using hi, ?_⟩
  rw [List.getD_eq_getElem?_getD, h]
  rfl

/-! ## The owners' checks (R23, R100, R149) -/

theorem winAccepted_iff (e : Entry) : winAccepted e = true ↔ e.valid = false ∨ (winAction e ≠ 3 ∧ winBase e ≤ winLimit e ∧
    winBase e < (if winMemory e then 2 ^ 24 else 2 ^ 16) ∧ winLimit e < (if winMemory e then 2 ^ 24 else 2 ^ 16)) := by
  have hs : spaceSize (winSpace e) = if winMemory e then 2 ^ 24 else 2 ^ 16 := by
    unfold winSpace
    cases winMemory e <;> rfl
  simp only [winAccepted, hs, Bool.or_eq_true, Bool.not_eq_true', Bool.and_eq_true, decide_eq_true_eq]
  tauto

theorem mapAccepted_iff (e : Entry) : mapAccepted e = true ↔
    e.valid = false ∨ (mapAccess e ≠ 3 ∧ mapF e + mapN e ≤ 4096 ∧ mapG e + mapN e ≤ 2 ^ 52) := by
  simp only [mapAccepted, Bool.or_eq_true, Bool.not_eq_true', Bool.and_eq_true, decide_eq_true_eq, and_assoc]

theorem segAccepted_iff (e : Entry) : segAccepted e = true ↔
    e.valid = false ∨ ((segNext e < 64 ∨ segNext e = 127) ∧ segHost e + segLength e ≤ 2 ^ 64) := by
  show _ ↔ e.valid = false ∨ ((segNext e < 64 ∨ segNext e = segEnd) ∧ segHost e + segLength e ≤ 2 ^ 64)
  simp only [segAccepted, Bool.or_eq_true, Bool.not_eq_true', Bool.and_eq_true, decide_eq_true_eq]

/-- The operand check of a table of `size` entries. -/
theorem tableOperandsGood_of {r : Record} {size : Nat} (hs : tableSize r.sub.toNat = size) (hn : entryNumber r < size)
    (hw : wordNumber r ≤ 3) : tableOperandsGood r = true := by
  simp [tableOperandsGood, hs, hn, hw]

theorem tableOperandsGood_not {r : Record} {size : Nat} (hs : tableSize r.sub.toNat = size)
    (h : size ≤ entryNumber r ∨ 3 < wordNumber r) : tableOperandsGood r = false := by
  rcases h with h | h <;> simp [tableOperandsGood, hs, h]

theorem tableSize_of_above {n : Nat} (h : 3 < n) : tableSize n = 0 := by
  have h0 : n ≠ tableWindow := by simp only [tableWindow]; omega
  have h1 : n ≠ tableMap := by simp only [tableMap]; omega
  have h2 : n ≠ tableSegment := by simp only [tableSegment]; omega
  have h3 : n ≠ tableSettings := by simp only [tableSettings]; omega
  rw [tableSize, if_neg h0, if_neg h1, if_neg h2, if_neg h3]

/-! ## TABLE WRITE to a window -/

section
variable {s : State} {r : Record} {old e : Entry}

theorem tableWriteWindow_bad (h : r.sub ≠ 0 ∨ tableOperandsGood r = false) : tableWriteWindow r s = answerPlain .badRequest s := by
  rw [tableWriteWindow, if_neg]
  rw [Bool.and_eq_true, decide_eq_true_eq]
  rintro ⟨h0, hg⟩
  rcases h with h | h
  · exact h h0
  · rw [h] at hg
    cases hg

theorem tableWriteWindow_good (h : r.sub = 0) (hw : wordNumber r ≤ 3) (hold : s.windows.toList[entryNumber r]? = some old)
    (he : e = candidateOf r old 0x00FF01FF 0xFFFFFFFF 0xFFFFFFFF 0) :
    tableWriteWindow r s = if winAccepted e then answerPlain .ok { s with windows := s.windows.setIfInBounds (entryNumber r) e }
      else answerPlain .badEntry s := by
  obtain ⟨hn, hget⟩ := table_at hold
  have hg : tableOperandsGood r = true := tableOperandsGood_of (size := 32) (by rw [h]; rfl) hn hw
  rw [tableWriteWindow, if_pos (by simp [h, hg]), hget, he, candidateOf_eq hw]
  rfl

theorem tableWriteMap_bad (h : tableOperandsGood r = false) : tableWriteMap r s = answerPlain .badRequest (invalidateLine s) := by
  rw [tableWriteMap, h]
  rfl

theorem tableWriteMap_good (h : r.sub = 1) (hw : wordNumber r ≤ 3) (hold : s.map.toList[entryNumber r]? = some old)
    (he : e = candidateOf r old 0x0FFF0007 0x00000FFF 0xFFFFFFFF 0x000FFFFF) :
    tableWriteMap r s =
      if mapAccepted e then answerPlain .ok { invalidateLine s with map := s.map.setIfInBounds (entryNumber r) e }
      else answerPlain .badEntry (invalidateLine s) := by
  obtain ⟨hn, hget⟩ := table_at hold
  have hg : tableOperandsGood r = true := tableOperandsGood_of (size := 32) (by rw [h]; rfl) hn hw
  rw [tableWriteMap, if_pos hg, he, candidateOf_eq hw, ← hget]
  rfl

theorem tableWriteSegment_bad (h : tableOperandsGood r = false) : tableWriteSegment r s = answerPlain .badRequest s := by
  rw [tableWriteSegment, h]
  rfl

theorem tableWriteSegment_good (h : r.sub = 2) (hw : wordNumber r ≤ 3) (hold : s.segments.toList[entryNumber r]? = some old)
    (he : e = candidateOf r old 0xFFFFFF01 0xFFFFFFFF 0xFFFFFFFF 0) :
    tableWriteSegment r s =
      if segAccepted e then answerPlain .ok { s with segments := s.segments.setIfInBounds (entryNumber r) e }
      else answerPlain .badEntry s := by
  obtain ⟨hn, hget⟩ := table_at hold
  have hg : tableOperandsGood r = true := tableOperandsGood_of (size := 64) (by rw [h]; rfl) hn hw
  rw [tableWriteSegment, if_pos hg, he, candidateOf_eq hw, ← hget]
  rfl

end

/-- A refused candidate is one that the owner's check does not accept. -/
theorem winAccepted_not {e : Entry} (h : e.valid = true ∧ (winAction e = 3 ∨ winLimit e < winBase e ∨
    (if winMemory e then 2 ^ 24 else 2 ^ 16) ≤ winBase e ∨ (if winMemory e then 2 ^ 24 else 2 ^ 16) ≤ winLimit e)) :
    ¬ winAccepted e = true := by
  rw [winAccepted_iff]
  obtain ⟨hv, h⟩ := h
  rintro (hf | ⟨h1, h2, h3, h4⟩)
  · rw [hv] at hf
    cases hf
  · omega

theorem mapAccepted_not {e : Entry} (h : e.valid = true ∧ (mapAccess e = 3 ∨ 4096 < mapF e + mapN e ∨ 2 ^ 52 < mapG e + mapN e)) :
    ¬ mapAccepted e = true := by
  rw [mapAccepted_iff]
  obtain ⟨hv, h⟩ := h
  rintro (hf | ⟨h1, h2, h3⟩)
  · rw [hv] at hf
    cases hf
  · omega

theorem segAccepted_not {e : Entry} (h : e.valid = true ∧ ((64 ≤ segNext e ∧ segNext e ≠ 127) ∨ 2 ^ 64 < segHost e + segLength e)) :
    ¬ segAccepted e = true := by
  rw [segAccepted_iff]
  obtain ⟨hv, h⟩ := h
  rintro (hf | ⟨h1, h2⟩)
  · rw [hv] at hf
    cases hf
  · omega

/-- Settles O47: the operand check, the owner's check and the outcome, table by table. -/
theorem tableWriteMergesAndChecks : Obligations.TableWriteMergesAndChecks := by
  intro s r n ht hk hn
  have hent : entryNumber r = n := hn.symm
  refine ⟨fun hsub => ?above, fun hsub => ⟨fun hbad => ?winBad, fun old e hold hw he => ⟨fun hno => ?winNo, fun hyes => ?winYes⟩⟩,
    fun hsub u hu => ⟨fun hbad => ?mapBad, fun old e hold hw he => ⟨fun hno => ?mapNo, fun hyes => ?mapYes⟩⟩,
    fun hsub => ⟨fun hbad => ?segBad, fun old e hold hw he => ⟨fun hno => ?segNo, fun hyes => ?segYes⟩⟩⟩
  case above =>
    have hne : r.sub ≠ 0 := by rintro h; rw [h] at hsub; simp at hsub
    exact ends_of_taken (v := s) rfl ht (by simp [hk, tableSettings, hsub]) ht (tableWriteWindow_bad (.inl hne))
  case winBad =>
    have hg : tableOperandsGood r = false := tableOperandsGood_not (size := 32) (by rw [hsub]; rfl) (hent ▸ hbad)
    exact ends_of_taken (v := s) rfl ht (by simp [hk, hsub, tableWindow]) ht (tableWriteWindow_bad (.inr hg))
  case winNo =>
    refine ends_of_taken (v := s) rfl ht (by simp [hk, hsub, tableWindow]) ht ?_
    exact (tableWriteWindow_good (s := setPhase .active s) hsub hw (hent ▸ hold) he).trans (if_neg (winAccepted_not hno))
  case winYes =>
    refine ends_of_taken (v := { s with windows := s.windows.setIfInBounds n e }) rfl ht (by simp [hk, hsub, tableWindow]) ht ?_
    rw [tableWriteWindow_good (s := setPhase .active s) hsub hw (hent ▸ hold) he, if_pos ((winAccepted_iff e).2 hyes), hent]
    rfl
  case mapBad =>
    have hg : tableOperandsGood r = false := tableOperandsGood_not (size := 32) (by rw [hsub]; rfl) (hent ▸ hbad)
    rw [hu]
    exact ends_of_taken rfl ht (by simp [writesTable, hk, hsub, tableMap]) ht (tableWriteMap_bad hg)
  case mapNo =>
    rw [hu]
    refine ends_of_taken rfl ht (by simp [writesTable, hk, hsub, tableMap]) ht ?_
    exact (tableWriteMap_good (s := setPhase .active s) hsub hw (hent ▸ hold) he).trans (if_neg (mapAccepted_not hno))
  case mapYes =>
    rw [hu]
    refine ends_of_taken rfl ht (by simp [writesTable, hk, hsub, tableMap]) ht ?_
    rw [tableWriteMap_good (s := setPhase .active s) hsub hw (hent ▸ hold) he, if_pos ((mapAccepted_iff e).2 hyes), hent]
    rfl
  case segBad =>
    have hg : tableOperandsGood r = false := tableOperandsGood_not (size := 64) (by rw [hsub]; rfl) (hent ▸ hbad)
    exact ends_of_taken (v := s) rfl ht (by simp [writesTable, hk, hsub, tableSegment]) ht (tableWriteSegment_bad hg)
  case segNo =>
    refine ends_of_taken (v := s) rfl ht (by simp [writesTable, hk, hsub, tableSegment]) ht ?_
    exact (tableWriteSegment_good (s := setPhase .active s) hsub hw (hent ▸ hold) he).trans (if_neg (segAccepted_not hno))
  case segYes =>
    refine ends_of_taken (v := { s with segments := s.segments.setIfInBounds n e }) rfl ht (by simp [writesTable, hk, hsub, tableSegment]) ht ?_
    rw [tableWriteSegment_good (s := setPhase .active s) hsub hw (hent ▸ hold) he, if_pos ((segAccepted_iff e).2 hyes), hent]
    rfl

/-! ## TABLE READ (R169) -/

/-- The number of entries of a table, by its id. -/
theorem tableSize_eq (id : Byte) :
    tableSize id.toNat = if id = 0 ∨ id = 1 then 32 else if id = 2 then 64 else if id = 3 then 1 else 0 := by
  have h (k : Nat) (hk : k < 256) : id.toNat = k ↔ id = BitVec.ofNat 8 k := by
    rw [← BitVec.toNat_inj, BitVec.toNat_ofNat, Nat.mod_eq_of_lt hk]
  simp only [tableSize, tableWindow, tableMap, tableSegment, tableSettings, h 0 (by decide), h 1 (by decide), h 2 (by decide),
    h 3 (by decide)]
  show (if id = 0 then 32 else if id = 1 then 32 else if id = 2 then 64 else if id = 3 then 1 else 0) = _
  by_cases h0 : id = 0
  · rw [if_pos h0, if_pos (.inl h0)]
  · by_cases h1 : id = 1
    · rw [if_neg h0, if_pos h1, if_pos (.inr h1)]
    · rw [if_neg h0, if_neg h1, if_neg (not_or.2 ⟨h0, h1⟩)]

theorem tableWord_eq (s : State) (id : Byte) (k n : Nat) : tableWord s id k n = (tableEntry s id.toNat k).word n := by
  have h (k : Nat) (hk : k < 256) : id.toNat = k ↔ id = BitVec.ofNat 8 k := by
    rw [← BitVec.toNat_inj, BitVec.toNat_ofNat, Nat.mod_eq_of_lt hk]
  have he : (if id = 0 then s.windows.toList.getD k ⟨0, 0, 0, 0⟩ else if id = 1 then s.map.toList.getD k ⟨0, 0, 0, 0⟩
      else if id = 2 then s.segments.toList.getD k ⟨0, 0, 0, 0⟩ else s.settings) = tableEntry s id.toNat k := by
    simp only [tableEntry, tableWindow, tableMap, tableSegment, h 0 (by decide), h 1 (by decide), h 2 (by decide)]
    rfl
  rw [tableWord, he]
  match n with
  | 0 | 1 | 2 | 3 => rfl
  | n + 4 => simp [Entry.word]

/-- Settles O49: the operand check, and the two words of the entry as it stands. -/
theorem tableReadGivesTwoWords : Obligations.TableReadGivesTwoWords := by
  intro s r size k n ht hk hsize hent hword
  have hs : tableSize r.sub.toNat = size := (tableSize_eq r.sub).trans hsize.symm
  refine ⟨fun hbad => ?_, fun hlt hle => ?_⟩
  · refine ends_of_taken (v := s) rfl ht (by simp [ofKind, hk]) ht ?_
    rw [tableRead, tableOperandsGood_not hs (by simpa [entryNumber, wordNumber, ← hent, ← hword] using hbad)]
    rfl
  · have hend := ends_of_taken (c := .tableRead) (v := s) (st := .ok) (n := 8)
      (d := wordBytes (tableWord s r.sub k n) ++ wordBytes (tableWord s r.sub k (n + 1))) rfl ht (by simp [ofKind, hk]) ht (by
        rw [tableRead, tableOperandsGood_of hs (by rw [entryNumber, ← hent]; exact hlt) (by rw [wordNumber, ← hword]; exact hle),
          tableWord_eq, tableWord_eq, hent, hword]
        rfl)
    obtain ⟨t, hexec, hends⟩ := hend
    exact ⟨t, hexec, respondsWith_of_alwaysResponds (by rw [hk]; rfl) .ok, hends⟩

/-! ## The settings entry (R171) -/

theorem PerChan.ofFn_get {α : Type} (p : PerChan α) : PerChan.ofFn p.get = p := rfl

/-- An event that leaves every channel as it was leaves it so as an event of the request in flight. -/
theorem causing_dma {event : State → State} {s : State} (h : ∀ c, (event s).chan c = s.chan c) :
    (causing event s).dma = { (event s).dma with chans := s.dma.chans } := by
  have hc : (fun c => Channel.blame (s.chan c) s.queue.number ((event s).chan c)) = s.dma.chans.get := by
    funext c
    rw [h c, Channel.blame_self]
    rfl
  simp only [causing, hc, PerChan.ofFn_get]

/-- What `applySettings` does before it weighs the lines, in one event. -/
def settingsEvent (old : Entry) (s : State) : State :=
  applyPriority old (applyHold old (applyAge old (applyPeriod old (applyClock s))))

theorem applySettings_eq (e : Entry) (s : State) :
    applySettings e s = causing (inChannelOrder (fun x => applyRing s.settings (settingsEvent s.settings x))) { s with settings := e } :=
  rfl

theorem applyClock_slot (s : State) :
    (applyClock s).slot = if s.arb.owner = .free then { s.slot with clock := setClock s.settings } else s.slot := by
  unfold applyClock
  split <;> rfl

theorem applyPeriod_within (old : Entry) (s : State) : Within { refresh := true } s (applyPeriod old s) := by
  unfold applyPeriod
  refine Within.ite (Within.refl _ s) ?_
  constructor <;> intro h <;> first | rfl | cases h

theorem applyPeriod_refresh (old : Entry) (s : State) :
    (applyPeriod old s).refresh =
      if setRefreshPeriod s.settings = setRefreshPeriod old then s.refresh else { s.refresh with timer := 0 } := by
  unfold applyPeriod
  split <;> rfl

theorem applyHold_within (old : Entry) (s : State) : Within { master := true, arb := true } s (applyHold old s) :=
  Within.ite (Within.refl _ s) (Within.ite (masterLong_within s) (Within.refl _ s))

theorem applyPriority_within (old : Entry) (s : State) : Within { dma := true } s (applyPriority old s) := by
  unfold applyPriority
  refine Within.ite ?_ (Within.refl _ s)
  constructor <;> intro h <;> first | rfl | cases h

theorem applyPriority_dma (old : Entry) (s : State) :
    (applyPriority old s).dma = if setRotating old ∧ ¬ setRotating s.settings then { s.dma with order := Chan.all } else s.dma := by
  unfold applyPriority
  cases setRotating old <;> cases setRotating s.settings <;> rfl

/-- What the fields but the ring's may touch. -/
abbrev Touch.applying : Touch :=
  { slot := true, refresh := true, staging := true, order := true, master := true, arb := true, dma := true }

theorem settingsEvent_within (old : Entry) (s : State) : Within Touch.applying s (settingsEvent old s) :=
  ((((applyClock_within s).seq (applyPeriod_within old _) (k := Touch.applying)).seq (applyAge_within old _) (k := Touch.applying)).seq
    (applyHold_within old _) (k := Touch.applying)).seq (applyPriority_within old _)

theorem applyAgeTo_extends (c : Chan) (s : State) : Extends s (applyAgeTo c s) := by
  unfold applyAgeTo
  split
  · exact Extends.ite (fun _ => flushDemand_extends c s) fun _ => .refl s
  · exact .refl s

theorem applyAge_extends (old : Entry) (s : State) : Extends s (applyAge old s) :=
  Extends.ite (fun _ => .refl s) fun _ => forChans_extends applyAgeTo_extends s

theorem settingsEvent_extends (old : Entry) (s : State) : Extends s (settingsEvent old s) :=
  Extends.after (.of_within (applyPriority_within ..)) (Extends.after (.of_within (applyHold_within ..)) (Extends.after
    (applyAge_extends ..) (Extends.after (.of_within (applyPeriod_within ..)) (.of_within (applyClock_within s)))))

/-- The blocks that no later field of the event touches. -/
theorem settingsEvent_slot (old : Entry) (s : State) : (settingsEvent old s).slot = (applyClock s).slot :=
  ((applyPriority_within ..).slot rfl).trans (((applyHold_within ..).slot rfl).trans (((applyAge_within ..).slot rfl).trans
    ((applyPeriod_within ..).slot rfl)))

theorem settingsEvent_refresh (old : Entry) (s : State) : (settingsEvent old s).refresh = (applyPeriod old (applyClock s)).refresh :=
  ((applyPriority_within ..).refresh rfl).trans (((applyHold_within ..).refresh rfl).trans ((applyAge_within ..).refresh rfl))

theorem settingsEvent_dma (old : Entry) (s : State) :
    (settingsEvent old s).dma = if setRotating old ∧ ¬ setRotating s.settings then { s.dma with order := Chan.all } else s.dma := by
  have hclock := applyClock_within s
  have hperiod := applyPeriod_within old (applyClock s)
  have hage := applyAge_within old (applyPeriod old (applyClock s))
  have hhold := applyHold_within old (applyAge old (applyPeriod old (applyClock s)))
  rw [settingsEvent, applyPriority_dma, hhold.dma rfl, hage.dma rfl, hperiod.dma rfl, hclock.dma rfl, hhold.settings rfl,
    hage.settings rfl, hperiod.settings rfl, hclock.settings rfl]

section
variable {old : Entry} {s : State}

theorem applyRing_within (h : s.irq.poll = none) (hw : s.irq.pollWaiting = false) :
    Within { irq := true, staging := true, master := true, order := true } s (applyRing old s) :=
  Within.ite (Within.refl _ s) (weighLines_unpolled_within h hw)

theorem applyRing_lines (h : s.irq.poll = none) (hw : s.irq.pollWaiting = false) : (applyRing old s).irq.lines = s.irq.lines := by
  unfold applyRing
  split
  · rfl
  · rw [weighLines_unpolled_irq h hw]

theorem applyRing_extends (old : Entry) (s : State) : Extends s (applyRing old s) :=
  Extends.ite (fun _ => .refl s) fun _ => weighLines_extends s

end

/-- What a new settings entry may touch where no poll is. -/
abbrev Touch.settling : Touch :=
  { settings := true, slot := true, refresh := true, staging := true, order := true, master := true, arb := true, dma := true,
    irq := true }

section
variable {e : Entry} {s : State}

/-- The event of a new settings entry, up to its place in channel order. -/
theorem settingsWeighed_within (hp : s.irq.poll = none) (hw : s.irq.pollWaiting = false) (old : Entry) :
    Within { irq := true, staging := true, master := true, order := true } (settingsEvent old s)
      (applyRing old (settingsEvent old s)) := by
  have h := settingsEvent_within old s
  exact applyRing_within (by rw [h.irq rfl]; exact hp) (by rw [h.irq rfl]; exact hw)

theorem applySettings_within (hp : s.irq.poll = none) (hw : s.irq.pollWaiting = false) :
    Within Touch.settling s (applySettings e s) := by
  have hset : Within Touch.settling s { s with settings := e } := by
    constructor <;> intro h <;> first | rfl | cases h
  have hevent := (settingsEvent_within s.settings { s with settings := e }).seq
    (settingsWeighed_within (s := { s with settings := e }) hp hw s.settings) (k := Touch.settling)
  exact hset.trans (causing_within (inChannelOrder_within hevent rfl))

theorem applySettings_settings (hp : s.irq.poll = none) (hw : s.irq.pollWaiting = false) : (applySettings e s).settings = e := by
  have h1 := settingsEvent_within s.settings { s with settings := e }
  have h2 := settingsWeighed_within (s := { s with settings := e }) hp hw s.settings
  rw [applySettings_eq, causing_settings]
  exact (h2.settings rfl).trans (h1.settings rfl)

theorem applySettings_slot (hp : s.irq.poll = none) (hw : s.irq.pollWaiting = false) :
    (applySettings e s).slot = if s.arb.owner = .free then { s.slot with clock := setClock e } else s.slot := by
  have h2 := settingsWeighed_within (s := { s with settings := e }) hp hw s.settings
  rw [applySettings_eq, causing_slot]
  exact (h2.slot rfl).trans ((settingsEvent_slot ..).trans (applyClock_slot _))

theorem applySettings_refresh (hp : s.irq.poll = none) (hw : s.irq.pollWaiting = false) :
    (applySettings e s).refresh =
      if setRefreshPeriod e = setRefreshPeriod s.settings then s.refresh else { s.refresh with timer := 0 } := by
  have h2 := settingsWeighed_within (s := { s with settings := e }) hp hw s.settings
  have hclock := applyClock_within { s with settings := e }
  rw [applySettings_eq, causing_refresh]
  refine (h2.refresh rfl).trans ((settingsEvent_refresh ..).trans ?_)
  rw [applyPeriod_refresh, hclock.settings rfl, hclock.refresh rfl]

theorem applySettings_dma (hp : s.irq.poll = none) (hw : s.irq.pollWaiting = false) :
    (applySettings e s).dma =
      if setRotating s.settings ∧ ¬ setRotating e then { s.dma with order := Chan.all } else s.dma := by
  have h2 := settingsWeighed_within (s := { s with settings := e }) hp hw s.settings
  have hd : (applyRing s.settings (settingsEvent s.settings { s with settings := e })).dma = _ :=
    (h2.dma rfl).trans (settingsEvent_dma s.settings { s with settings := e })
  have hc (c : Chan) : (inChannelOrder (fun x => applyRing s.settings (settingsEvent s.settings x)) { s with settings := e }).chan c =
      State.chan { s with settings := e } c := by
    show (applyRing s.settings (settingsEvent s.settings { s with settings := e })).dma.chans.get c = _
    rw [hd]
    split <;> rfl
  rw [applySettings_eq, causing_dma hc]
  show ({ (applyRing s.settings (settingsEvent s.settings { s with settings := e })).dma with chans := s.dma.chans } : Dma) = _
  rw [hd]
  split <;> rfl

theorem applySettings_lineRec (hp : s.irq.poll = none) (hw : s.irq.pollWaiting = false) (l : Line) :
    (applySettings e s).lineRec l = s.lineRec l := by
  have h := settingsEvent_within s.settings { s with settings := e }
  rw [applySettings_eq, causing_lineRec]
  show (applyRing s.settings (settingsEvent s.settings { s with settings := e })).irq.lines.get l = _
  rw [applyRing_lines (by rw [h.irq rfl]; exact hp) (by rw [h.irq rfl]; exact hw), h.irq rfl]
  rfl

theorem applySettings_order (e : Entry) (s : State) : ∃ new, (applySettings e s).order = s.order ++ new ∧ InChannelOrder new := by
  rw [applySettings_eq, causing_order]
  exact inChannelOrder_new (Extends.after (applyRing_extends ..) (settingsEvent_extends ..))

end

/-- The numbers that name a line are those that the clamp leaves. -/
theorem clampTop_eq_self_iff (n : Nat) : clampTop n = n ↔ n ∈ [3, 4, 5, 6, 7, 9, 10, 11, 12, 14, 15] := by
  simp only [List.mem_cons, List.not_mem_nil, or_false]
  unfold clampTop
  split_ifs <;> omega

/-- OK where every field is in its range, and CLAMPED else (R171). -/
theorem settingsStatus_eq (e : Entry) : (if settingsInRange e = true then Status.ok else .clamped) =
    if setClockCode e ≠ 3 ∧ 2 ≤ setReadyLimit e ∧ (setRefreshPeriod e = 0 ∨ 5 ≤ setRefreshPeriod e) ∧
      setTopCode e ∈ [3, 4, 5, 6, 7, 9, 10, 11, 12, 14, 15] ∧ setNestCode e ≤ 1 then .ok else .clamped := by
  refine if_congr ?_ rfl rfl
  have hperiod : (¬ (1 ≤ setRefreshPeriod e ∧ setRefreshPeriod e ≤ 4)) ↔ setRefreshPeriod e = 0 ∨ 5 ≤ setRefreshPeriod e := by omega
  rw [settingsInRange_iff, clampTop_eq_self_iff, hperiod, Nat.lt_succ_iff]

/-- Settles O48: the candidate's fields are clamped, and each field's block is as its own part of the event leaves it. -/
theorem settingsWriteIsClampedAndApplied : Obligations.SettingsWriteIsClampedAndApplied := by
  intro s r e ht hk hsub hp hw he
  have hsize : tableSize r.sub.toNat = 1 := by rw [hsub]; rfl
  have hrow : writesTable tableSettings r = true := by simp [writesTable, hk, hsub, tableSettings]
  refine ⟨fun hbad => ?bad, fun hn hword => ?good⟩
  case bad =>
    refine ends_of_taken (v := s) rfl ht hrow ht ?_
    rw [tableWriteSettings, tableOperandsGood_not hsize (hbad.imp_left fun h => Nat.one_le_iff_ne_zero.2 h)]
    rfl
  case good =>
    have hcand : e = candidate s.settings r := by rw [he, candidateOf_eq hword, keep_ones]
    have hgood : tableOperandsGood r = true := tableOperandsGood_of hsize (by rw [entryNumber, hn]; exact Nat.one_pos) hword
    have hpa : (setPhase .active s).irq.poll = none := hp
    have hwa : (setPhase .active s).irq.pollWaiting = false := hw
    have hwithin := applySettings_within (e := clampSettings e) hpa hwa
    have hset : (applySettings (clampSettings e) (setPhase .active s)).settings = clampSettings e := applySettings_settings hpa hwa
    have hslot := applySettings_slot (e := clampSettings e) hpa hwa
    have hrefresh := applySettings_refresh (e := clampSettings e) hpa hwa
    have hdma := applySettings_dma (e := clampSettings e) hpa hwa
    have hlines := fun l => applySettings_lineRec (e := clampSettings e) hpa hwa l
    have horder := applySettings_order (clampSettings e) (setPhase .active s)
    have hexec : exec .tableWriteSettings s = .next (endRequest (if settingsInRange e then .ok else .clamped) 0 zeros8
        (applySettings (clampSettings e) (setPhase .active s))) := by
      refine congrArg Host.Outcome.next ((whenTaken_taken tableWriteSettings ht hrow).trans ?_)
      rw [tableWriteSettings, hgood, hcand]
      rfl
    generalize applySettings (clampSettings e) (setPhase .active s) = v at *
    have hends := endRequest_of_takenThen (if settingsInRange e then .ok else .clamped) 0 zeros8 ht (hwithin.queue rfl)
    obtain ⟨hc, hr, hper, hage, hten, hhold, hrot, htop, hnest⟩ := clampSettings_fields e
    have hclock : setClockCode e < 4 := field_lt ..
    refine ⟨{ v with queue := s.queue }, _, hexec, settingsStatus_eq e ▸ hends, hwithin.withQueue, ?_, ?_, ?_, ?_, ?_, ?_, ?_, ?_, ?_, ?_,
      horder, ?_, ?_, ?_, ?_, hlines⟩
    all_goals simp only [hset]
    · rw [hc]
      split <;> omega
    · rw [hr]
      split <;> omega
    · rw [hper]
      split <;> split <;> omega
    · exact hage
    · exact hten
    · exact hhold
    · exact hrot
    · rw [setNested, hnest]
      refine decide_eq_decide.2 ?_
      split <;> omega
    · exact fun hin => htop.trans ((clampTop_eq_self_iff _).2 hin)
    · exact htop
    · exact fun hfree => hslot.trans (if_pos hfree)
    · exact fun hfree => hslot.trans (if_neg hfree)
    · exact hrefresh
    · exact hdma

/-! ## TABLE CLEAR (R170) -/

theorem tableClear_eq (r : Record) (s : State) :
    tableClear r s = if clearOperandsGood r then answerPlain .ok (clearTable r (if r.sub.toNat = tableMap then invalidateLine s else s))
      else answerPlain .badRequest (if r.sub.toNat = tableMap then invalidateLine s else s) := rfl

theorem sub_toNat_iff {id : Byte} {k : Nat} (hk : k < 256) : id.toNat = k ↔ id = BitVec.ofNat 8 k := by
  rw [← BitVec.toNat_inj, BitVec.toNat_ofNat, Nat.mod_eq_of_lt hk]

/-- Settles O50: the operand check, and the reset value of the table named. -/
theorem tableClearGivesResetValues : Obligations.TableClearGivesResetValues := by
  intro s u r size k ht hk hsize hent hu
  have hrow : ofKind .tableClear r = true := by simp [ofKind, hk]
  have hs : tableSize r.sub.toNat = size := (tableSize_eq r.sub).trans hsize.symm
  have hmap : r.sub.toNat = tableMap ↔ r.sub = 1 := sub_toNat_iff (by decide)
  have hline : (if r.sub.toNat = tableMap then invalidateLine (setPhase .active s) else setPhase .active s) = setPhase .active u := by
    rw [hu]
    by_cases h : r.sub = 1
    · rw [if_pos (hmap.2 h), if_pos h]
      rfl
    · rw [if_neg (mt hmap.1 h), if_neg h]
  have hut : takenRecord u = some r := by
    rw [hu]
    split <;> exact ht
  refine ⟨fun hbad => ?bad, fun hgood => ?good⟩
  case bad =>
    have hno : clearOperandsGood r = false := by
      rcases hbad with h | ⟨h1, h2⟩
      · have hle : ¬ r.sub.toNat ≤ tableSettings := Nat.not_le.2 h
        simp [clearOperandsGood, hle]
      · simp [clearOperandsGood, h1, hs, entryNumber, ← hent, h2]
    refine ends_of_taken rfl ht hrow hut ?_
    rw [tableClear_eq, hno, hline]
    rfl
  case good =>
    have hyes (h : r.sub.toNat ≤ 3) : clearOperandsGood r = true := by
      have h' : r.sub.toNat ≤ tableSettings := h
      rcases hgood with h1 | h1 <;> simp [clearOperandsGood, h', hs, entryNumber, ← hent, h1]
    have hclear (h : r.sub.toNat ≤ 3) : tableClear r (setPhase .active s) = answerPlain .ok (clearTable r (setPhase .active u)) := by
      rw [tableClear_eq, hyes h, hline]
      rfl
    refine ⟨fun hsub => ?windows, fun hsub => ?map, fun hsub => ?segments, fun hsub hp hw => ?settings⟩
    case windows =>
      have hus : u = s := by rw [hu, hsub]; rfl
      refine ends_of_taken rfl ht hrow (by exact hut) ((hclear (by rw [hsub]; decide)).trans ?_)
      rw [clearTable, hsub, hent, hus]
      rfl
    case map =>
      have hum : u.map = s.map := by rw [hu]; split <;> rfl
      refine ends_of_taken rfl ht hrow (by exact hut) ((hclear (by rw [hsub]; decide)).trans ?_)
      rw [clearTable, hsub, hent, ← hum]
      rfl
    case segments =>
      have hus : u = s := by rw [hu, hsub]; rfl
      refine ends_of_taken rfl ht hrow (by exact hut) ((hclear (by rw [hsub]; decide)).trans ?_)
      rw [clearTable, hsub, hent, hus]
      rfl
    case settings =>
      have hus : u = s := by rw [hu, hsub]; rfl
      have hpa : (setPhase .active s).irq.poll = none := hp
      have hwa : (setPhase .active s).irq.pollWaiting = false := hw
      have hwithin := applySettings_within (e := Entry.settingsReset) hpa hwa
      have hends := endRequest_of_takenThen .ok 0 zeros8 ht (hwithin.queue rfl)
      have hexec : exec .tableClear s =
          .next (endRequest .ok 0 zeros8 (applySettings Entry.settingsReset (setPhase .active s))) := by
        refine congrArg Host.Outcome.next ((whenTaken_taken tableClear ht hrow).trans ((hclear (by rw [hsub]; decide)).trans ?_))
        rw [clearTable, hsub, hus]
        rfl
      exact ⟨_, _, hexec, hends, applySettings_settings hpa hwa, hwithin.withQueue⟩

end Sys2Proof.Machine
end

section
/-! PROOF. Interrupt lines (R131 to R145): which line is delivered first, what weighing afresh leaves of the candidate, and the requests to
lines. -/

namespace Sys2Proof.Machine

set_option Elab.async false

/-! ## The first line of the ring (R134, R135) -/

theorem mem_ringFrom (top l : Line) : l ∈ ringFrom top := by
  cases top <;> cases l <;> decide

theorem ringFrom_nodup (top : Line) : (ringFrom top).Nodup := by cases top <;> decide

/-- A search from the top finds the line of lowest rank that has what is looked for. -/
theorem find_ringFrom {top l : Line} {p : Line → Bool} (hl : p l = true) (hmin : ∀ m, p m = true → rank top l ≤ rank top m) :
    (ringFrom top).find? p = some l := by
  have hi : (ringFrom top).idxOf l < (ringFrom top).length := List.idxOf_lt_length_of_mem (mem_ringFrom top l)
  refine List.find?_eq_some_iff_getElem.2 ⟨hl, _, hi, List.getElem_idxOf hi, fun j hj => ?_⟩
  have hj' : j < (ringFrom top).length := hj.trans hi
  have hidx : (ringFrom top).idxOf (ringFrom top)[j] = j := (ringFrom_nodup top).idxOf_getElem j hj'
  by_contra hp
  have hle := hmin _ (by simpa using hp)
  simp only [rank, hidx] at hle
  omega

theorem eligible_iff (s : State) (l : Line) : eligible s l = true ↔ MayDeliver s l := by
  have hheld : heldBack s l = false ↔ (setNested s.settings = true →
      ∀ m, (s.lineRec m).inService = true → rank (setTop s.settings) l < rank (setTop s.settings) m) := by
    have hring (m : Line) : m ∈ Line.ring := by cases m <;> decide
    simp only [heldBack, Bool.and_eq_false_iff, List.any_eq_false, Bool.and_eq_true, decide_eq_true_eq, not_and, not_le]
    show (setNested s.settings = false ∨ ∀ m ∈ Line.ring, (s.lineRec m).inService = true →
      rank (setTop s.settings) l < rank (setTop s.settings) m) ↔ _
    constructor
    · rintro (h | h) hn m hm
      · rw [hn] at h
        cases h
      · exact h m (hring m) hm
    · intro h
      cases hn : setNested s.settings
      · exact .inl rfl
      · exact .inr fun m _ hm => h hn m hm
  simp only [eligible, MayDeliver, Bool.and_eq_true, Bool.not_eq_true', hheld, and_assoc]

theorem bestEligible_some {s : State} {l : Line} (h : MayDeliver s l)
    (hmin : ∀ m, MayDeliver s m → rank (setTop s.settings) l ≤ rank (setTop s.settings) m) : bestEligible s = some l :=
  find_ringFrom ((eligible_iff s l).2 h) fun m hm => hmin m ((eligible_iff s m).1 hm)

theorem bestEligible_none {s : State} (h : ∀ l, ¬ MayDeliver s l) : bestEligible s = none :=
  List.find?_eq_none.2 fun l _ => (eligible_iff s l).not.2 (h l)

theorem eligible_of_bestEligible {s : State} {l : Line} (h : bestEligible s = some l) : eligible s l = true := List.find?_some h

theorem bestInService_some {s : State} {l : Line} (h : HighestInService s l) : bestInService s = some l :=
  find_ringFrom (p := fun l => (s.lineRec l).inService) h.1 h.2

theorem bestInService_none {s : State} (h : ∀ l, (s.lineRec l).inService = false) : bestInService s = none :=
  List.find?_eq_none.2 fun l _ => by simp [h l]

/-- Only the line records and the settings tell which lines may be delivered. -/
theorem eligible_congr {s t : State} (hl : t.irq.lines = s.irq.lines) (hs : t.settings = s.settings) (l : Line) :
    eligible t l = eligible s l := by
  refine Bool.eq_iff_iff.2 ?_
  simp only [eligible_iff, MayDeliver, State.lineRec, hl, hs]

theorem bestEligible_congr {s t : State} (hl : t.irq.lines = s.irq.lines) (hs : t.settings = s.settings) :
    bestEligible t = bestEligible s := by
  simp only [bestEligible, top, hs]
  congr 1
  funext l
  exact eligible_congr hl hs l

/-! ## The candidate after weighing afresh (R136, R137, R139) -/

/-- The candidate after a drop, a selection or a pass to POSTING, by what it was before. -/
theorem dropDelivery_delivery (s : State) :
    (dropDelivery s).irq.delivery = s.irq.delivery.filter (fun d => eligible s d.line) := by
  unfold dropDelivery
  cases hd : s.irq.delivery with
  | none => simp [hd]
  | some d =>
    by_cases he : eligible s d.line = true
    · simp [he, hd, Option.filter]
    · simp [he, Option.filter]

theorem selectCandidate_delivery {s : State} {d : Delivery} (h : (selectCandidate s).irq.delivery = some d) :
    s.irq.delivery = some d ∨ (s.irq.delivery = none ∧ d.causes = [] ∧ bestEligible s = some d.line) := by
  unfold selectCandidate at h
  split at h
  · rename_i hc
    have hn : s.irq.delivery = none := by
      simp only [Bool.and_eq_true, Option.isNone_iff_eq_none] at hc
      exact hc.1.1
    split at h
    · rw [hn] at h
      cases h
    · rename_i l hl
      cases h
      exact .inr ⟨hn, rfl, hl⟩
  · exact .inl h

theorem postReady_delivery {s : State} {d : Delivery} (h : (postReady s).irq.delivery = some d) :
    ∃ d', s.irq.delivery = some d' ∧ d'.line = d.line ∧ d'.causes = d.causes := by
  unfold postReady at h
  split at h
  · rename_i d' hd
    split at h
    · cases h
      exact ⟨d', hd, rfl, rfl⟩
    · rw [hd] at h
      cases h
      exact ⟨_, hd, rfl, rfl⟩
  · rename_i hd
    rw [hd] at h
    cases h

/-- With no poll, the candidate after weighing is the one before, or a new one of another line that nothing has caused yet. -/
theorem weighLines_delivery {s : State} (hp : s.irq.poll = none) (hw : s.irq.pollWaiting = false) {d : Delivery}
    (h : (weighLines s).irq.delivery = some d) :
    (∃ d', s.irq.delivery = some d' ∧ d'.line = d.line ∧ d'.causes = d.causes) ∨
      (d.causes = [] ∧ ∀ d', s.irq.delivery = some d' → d'.line ≠ d.line) := by
  rw [weighLines_unpolled hp hw] at h
  obtain ⟨d1, h1, hl1, hc1⟩ := postReady_delivery h
  have hdrop := dropDelivery_delivery s
  rcases selectCandidate_delivery h1 with h2 | ⟨h2, hc2, hb⟩
  · rw [hdrop] at h2
    exact .inl ⟨d1, (Option.filter_eq_some_iff.1 h2).1, hl1, hc1⟩
  · refine .inr ⟨hc1.symm.trans hc2, fun d' hd' hline => ?_⟩
    have hirq := dropDelivery_irq s
    have hsame : eligible (dropDelivery s) d1.line = eligible s d1.line :=
      eligible_congr (by rw [hirq]) ((dropDelivery_within s).settings rfl) _
    have hyes : eligible s d'.line = true := by
      rw [hline, ← hl1, ← hsame]
      exact eligible_of_bestEligible hb
    rw [hdrop, hd'] at h2
    simp [Option.filter, hyes] at h2

/-- An event of the request in flight that weighs the lines marks a new candidate with the request's number, and no other. -/
theorem newCandidate_of_weighed {f : State → State} {s : State} (hd : (f (setPhase .active s)).irq.delivery = s.irq.delivery)
    (hp : (f (setPhase .active s)).irq.poll = none) (hw : (f (setPhase .active s)).irq.pollWaiting = false) :
    NewCandidate s { causing (fun x => weighLines (f x)) (setPhase .active s) with queue := s.queue } := by
  intro d h
  have hc := causing_delivery (fun x => weighLines (f x)) (setPhase .active s)
  obtain ⟨d0, h0, rfl⟩ := Option.map_eq_some_iff.1 (hc.symm.trans h)
  have hirq : (setPhase .active s).irq = s.irq := rfl
  rw [hirq]
  rcases weighLines_delivery hp hw h0 with ⟨d', hd', hline, hcauses⟩ | ⟨hcauses, hline⟩
  · rw [hd] at hd'
    refine .inl ⟨d', hd', ?_⟩
    rw [if_pos (by rw [hd', Option.map_some, hline])]
    exact ⟨hline, hcauses⟩
  · rw [hd] at hline
    have hne : ¬ s.irq.delivery.map Delivery.line = some d0.line := by
      rintro hm
      obtain ⟨d', hd', hl⟩ := Option.map_eq_some_iff.1 hm
      exact hline d' hd' hl
    rw [if_neg hne]
    refine .inr ⟨hline, ?_⟩
    show d0.causes ++ [s.queue.number] = _
    rw [hcauses, List.nil_append]

/-! ## LINE SET and LINE MASK (R140, R141) -/

/-- A request that weighs the lines after a change of the interrupt unit's own records, with no poll. -/
theorem weighed_within {f : State → State} {s : State} (hf : Within { irq := true } (setPhase .active s) (f (setPhase .active s)))
    (hp : (f (setPhase .active s)).irq.poll = none) (hw : (f (setPhase .active s)).irq.pollWaiting = false) :
    Within Touch.draining (setPhase .active s) (causing (fun x => weighLines (f x)) (setPhase .active s)) :=
  causing_within (hf.seq (weighLines_unpolled_within hp hw) (k := Touch.draining))

theorem weighed_lineRec {f : State → State} {s : State} (hp : (f (setPhase .active s)).irq.poll = none)
    (hw : (f (setPhase .active s)).irq.pollWaiting = false) (l : Line) :
    (causing (fun x => weighLines (f x)) (setPhase .active s)).lineRec l = (f (setPhase .active s)).lineRec l := by
  rw [causing_lineRec, State.lineRec, weighLines_unpolled_irq hp hw]
  rfl

/-- A field of a word that ends it. -/
theorem field_top (w : Word) {lo len : Nat} (h : lo + len = 32) : field w lo len = w.toNat / 2 ^ lo := by
  have hw := w.isLt
  refine Nat.mod_eq_of_lt ?_
  rw [Nat.div_lt_iff_lt_mul (by positivity), ← pow_add, Nat.add_comm, h]
  exact hw

theorem lineWordGood_iff (w : Word) : lineWordGood w = true ↔
    w.getLsbD 20 = false ∧ w.toNat < 2 ^ 24 ∧ field w 0 2 ≤ 1 ∧ ¬ (field w 0 2 = 1 ∧ w.getLsbD 3 = true) := by
  have h24 : field w 24 8 = 0 ↔ w.toNat < 2 ^ 24 := by
    rw [field_top w (by decide)]
    omega
  have htrigger : wordTrigger w = field w 0 2 := rfl
  have hauto : wordAutoEnd w = w.getLsbD 3 := rfl
  simp only [lineWordGood, Bool.and_eq_true, Bool.not_eq_true', decide_eq_true_eq, h24, Bool.and_eq_false_iff,
    decide_eq_false_iff_not, bit, htrigger, hauto, and_assoc, not_and_or, Bool.not_eq_true]

theorem lineMarksGood_iff (w : Word) : lineMarksGood w = true ↔
    ∀ n, n ∈ [0, 1, 2, 8, 13, 16, 17, 18, 19, 20, 21, 22, 23, 24, 25, 26, 27, 28, 29, 30, 31] → w.getLsbD n = false := by
  have h16 : field w 16 16 = 0 ↔ ∀ i, i < 16 → w.getLsbD (16 + i) = false := by
    rw [field_eq_extract, ← BitVec.toNat_zero (w := 16), BitVec.toNat_inj]
    constructor
    · intro h i hi
      have hb := congrArg (fun v => v.getLsbD i) h
      simpa [hi] using hb
    · intro h
      ext i hi
      simpa using h i hi
  simp only [lineMarksGood, Bool.and_eq_true, Bool.not_eq_true', decide_eq_true_eq, h16, bit, and_assoc]
  constructor
  · rintro ⟨h0, h1, h2, h8, h13, h⟩ n hn
    have hcase : n = 0 ∨ n = 1 ∨ n = 2 ∨ n = 8 ∨ n = 13 ∨ (16 ≤ n ∧ n < 32) := by
      simp only [List.mem_cons, List.not_mem_nil, or_false] at hn
      omega
    obtain rfl | rfl | rfl | rfl | rfl | ⟨hlo, hhi⟩ := hcase
    · exact h0
    · exact h1
    · exact h2
    · exact h8
    · exact h13
    · have hn16 := h (n - 16) (by omega)
      rwa [Nat.add_sub_cancel' hlo] at hn16
  · intro h
    refine ⟨h 0 (by decide), h 1 (by decide), h 2 (by decide), h 8 (by decide), h 13 (by decide), fun i hi => h (16 + i) ?_⟩
    interval_cases i <;> decide

/-- The record that LINE SET writes is the statement's. -/
theorem lineSetTo_eq {w : Word} {level : Bool} (h : field w 0 2 = if level then 1 else 0) (l : Line) (s : State) :
    lineSetTo w l s =
      { level := level, mask := w.getLsbD 2, inService := (s.lineRec l).inService
        drain := ⟨w.getLsbD 16, w.getLsbD 17, w.getLsbD 18, w.getLsbD 19, w.getLsbD 21, w.getLsbD 22, w.getLsbD 23⟩
        autoEnd := w.getLsbD 3
        pending := if (s.lineRec l).level = level then (s.lineRec l).pending
                   else level && s.pins.irq.get l && s.slot.line ≠ .asserted
        overrun := if (s.lineRec l).level = level then (s.lineRec l).overrun else false } := by
  have hlevel : wordTrigger w = 1 ↔ level = true := by
    rw [wordTrigger, h]
    cases level <;> decide
  have hsame : (((s.lineRec l).level = true) = (wordTrigger w = 1)) = ((s.lineRec l).level = level) := by
    rw [propext hlevel]
    cases (s.lineRec l).level <;> cases level <;> simp
  have hdec : decide (wordTrigger w = 1) = level := by
    rw [Bool.eq_iff_iff, decide_eq_true_eq, hlevel]
  simp only [lineSetTo, hsame, hdec]
  rfl

/-- Settles O39: LINE SET writes one record and LINE MASK the masks marked, and weighing afresh leaves the records as written. -/
theorem lineSetAndMaskWriteLines : Obligations.LineSetAndMaskWriteLines := by
  refine ⟨fun s r ht hk hp hw => ⟨fun hbad => ?setBad, fun l level hl hlev hauto hdrain hsmall => ?setGood⟩,
    fun on i s r hi ht hk hf hp hw => ?mask⟩
  case setBad =>
    refine ends_of_taken (v := s) rfl ht (by simp [ofKind, hk]) ht ?_
    have hno : lineWordGood r.addr = false ∨ Line.ofNum r.sub.toNat = none := by
      rcases hbad with h | h | ⟨h, h'⟩ | h | h
      · exact .inr h
      all_goals
        refine .inl (Bool.eq_false_iff.2 fun hg => ?_)
        obtain ⟨h1, h2, h3, h4⟩ := (lineWordGood_iff _).1 hg
      · omega
      · exact h4 ⟨h, h'⟩
      · rw [h] at h1
        cases h1
      · omega
    unfold lineSet
    split
    · rfl
    · rename_i l hl
      rcases hno with hno | hno
      · rw [hno]
        rfl
      · rw [recordLine, hno] at hl
        cases hl
  case setGood =>
    have hgood : lineWordGood r.addr = true := by
      refine (lineWordGood_iff _).2 ⟨hdrain, hsmall, ?_, fun ⟨h1, h2⟩ => ?_⟩
      · rw [hlev]
        split <;> omega
      · cases level
        · rw [hlev] at h1
          cases h1
        · rw [hauto rfl] at h2
          cases h2
    let f : State → State := fun x => x.putLine l (lineSetTo r.addr l x)
    have hwithin := weighed_within (f := f) (s := s) (putLine_within ..) hp hw
    have hline := weighed_lineRec (f := f) (s := s) hp hw
    have hnew := newCandidate_of_weighed (f := f) (s := s) rfl hp hw
    have hexec : exec .lineSet s = .next (answerPlain .ok (causing (fun x => weighLines (f x)) (setPhase .active s))) := by
      refine congrArg Host.Outcome.next ((whenTaken_taken lineSet ht (by simp [ofKind, hk])).trans ?_)
      simp only [lineSet, recordLine, hl, hgood, if_true]
      rfl
    refine ⟨_, _, hexec, endRequest_of_takenThen .ok 0 zeros8 ht (hwithin.queue rfl), hwithin.withQueue, fun m hm => ?_, ?_, hnew⟩
    · exact (hline m).trans ((State.putLine_lineRec ..).trans (if_neg hm))
    · exact (hline l).trans ((State.putLine_lineRec ..).trans ((if_pos rfl).trans (lineSetTo_eq hlev l s)))
  case mask =>
    have hexec {u : State} (hb : lineMask on r (setPhase .active s) = u) : exec i s = .next u := by
      subst hi
      cases on
      · exact congrArg Host.Outcome.next ((whenTaken_taken (lineMask false) ht (by simp [hk, hf])).trans hb)
      · exact congrArg Host.Outcome.next ((whenTaken_taken (lineMask true) ht (by simp [hk, hf])).trans hb)
    refine ⟨fun ⟨n, hn, hbit⟩ => ?_, fun hclear => ?_⟩
    · have hno : lineMarksGood r.addr = false := Bool.eq_false_iff.2 fun hg => by
        rw [(lineMarksGood_iff _).1 hg n hn] at hbit
        cases hbit
      exact ⟨_, hexec (by rw [lineMask, hno]; rfl), endRequest_of_taken .badRequest 0 zeros8 ht⟩
    · have hyes : lineMarksGood r.addr = true := (lineMarksGood_iff _).2 hclear
      have hwithin := weighed_within (f := maskLines on r.addr) (s := s) (putIrq_within ..) hp hw
      have hline := weighed_lineRec (f := maskLines on r.addr) (s := s) hp hw
      have hnew := newCandidate_of_weighed (f := maskLines on r.addr) (s := s) rfl hp hw
      refine ⟨_, _, hexec (if_pos hyes), endRequest_of_takenThen .ok 0 zeros8 ht (hwithin.queue rfl),
        hwithin.withQueue, fun l => (hline l).trans ?_, hnew⟩
      rw [maskLines, State.lineRec, State.putIrq_irq, PerLine.get_ofFn]
      show (if r.addr.getLsbD l.num = true then { s.lineRec l with mask := on } else s.lineRec l) = _
      split <;> rfl

/-! ## LINE END (R142, R143) -/

theorem ofNum_num (l : Line) : Line.ofNum l.num = some l := by cases l <;> decide

theorem setTop_putTop (e : Entry) (l : Line) : setTop (putTop e l) = l := by
  rw [setTop, setTopCode_putTop, clampTop_num, ofNum_num]
  rfl

theorem endService_within (l : Line) (rot : Bool) (s : State) : Within { irq := true, settings := true } s (endService l rot s) := by
  unfold endService
  refine Within.ite ?_ ((putLine_within ..).mono (by decide))
  constructor <;> intro h <;> first | rfl | cases h

theorem endService_lineRec (l : Line) (rot : Bool) (s : State) (m : Line) :
    (endService l rot s).lineRec m = if m = l then { s.lineRec l with inService := false } else s.lineRec m := by
  unfold endService
  split <;> exact State.putLine_lineRec ..

theorem endService_settings (l : Line) (rot : Bool) (s : State) :
    (endService l rot s).settings = if rot then putTop s.settings l.after else s.settings := by
  unfold endService
  cases rot <;> rfl

/-- The outcome of LINE END on a line in service. -/
theorem endLine_inService {s : State} {r : Record} {l : Line} {c : Instr} (ht : takenRecord s = some r) (hp : s.irq.poll = none)
    (hw : s.irq.pollWaiting = false) (hin : (s.lineRec l).inService = true)
    (hexec : exec c s = .next (endLine l (flag2 r) (setPhase .active s))) :
    ∃ u t, exec c s = .next t ∧ EndsPlain r .ok u t ∧
      Within { irq := true, staging := true, master := true, order := true, settings := true } s u ∧
      u.lineRec l = { s.lineRec l with inService := false } ∧ (∀ m, m ≠ l → u.lineRec m = s.lineRec m) ∧
      (flag2 r = false → u.settings = s.settings) ∧
      (flag2 r = true → setTop u.settings = l.after ∧ u.settings.w0 = s.settings.w0 ∧ u.settings.w1 = s.settings.w1 ∧
        setNested u.settings = setNested s.settings) := by
  have hservice := endService_within l (flag2 r) (setPhase .active s)
  have hirq : (endService l (flag2 r) (setPhase .active s)).irq.poll = none ∧
      (endService l (flag2 r) (setPhase .active s)).irq.pollWaiting = false := by
    unfold endService
    split <;> exact ⟨hp, hw⟩
  have hweigh := weighLines_unpolled_within hirq.1 hirq.2
  have hwithin : Within { irq := true, staging := true, master := true, order := true, settings := true } (setPhase .active s)
      (causing (fun x => weighLines (endService l (flag2 r) x)) (setPhase .active s)) :=
    causing_within (hservice.seq hweigh)
  have hline := weighed_lineRec (f := endService l (flag2 r)) hirq.1 hirq.2
  have hset : (causing (fun x => weighLines (endService l (flag2 r) x)) (setPhase .active s)).settings =
      if flag2 r then putTop s.settings l.after else s.settings :=
    (causing_settings ..).trans ((hweigh.settings rfl).trans (endService_settings ..))
  have hgo : endLine l (flag2 r) (setPhase .active s) =
      answerPlain .ok (causing (fun x => weighLines (endService l (flag2 r) x)) (setPhase .active s)) := if_pos hin
  rw [hgo] at hexec
  refine ⟨_, _, hexec, endRequest_of_takenThen .ok 0 zeros8 ht (hwithin.queue rfl), hwithin.withQueue, ?_, fun m hm => ?_, fun h => ?_,
    fun h => ?_⟩
  · exact (hline l).trans ((endService_lineRec ..).trans (if_pos rfl))
  · exact (hline m).trans ((endService_lineRec ..).trans (if_neg hm))
  · exact hset.trans (by rw [h]; rfl)
  · have hput := hset.trans (if_pos h)
    refine ⟨(congrArg setTop hput).trans (setTop_putTop ..), (congrArg Entry.w0 hput).trans rfl, (congrArg Entry.w1 hput).trans rfl,
      (congrArg setNested hput).trans ?_⟩
    rw [setNested, setNestCode_putTop]
    rfl

/-- Settles O40: the line is the one named, or the one in service that stands first in the ring. -/
theorem lineEndTakesOutOfService : Obligations.LineEndTakesOutOfService := by
  intro i s r hi ht hk hp hw
  have hspec {u : State} (hf : flag1 r = true) (hb : lineEndSpecific r (setPhase .active s) = u) : exec i s = .next u := by
    rw [hi, hf]
    exact congrArg Host.Outcome.next ((whenTaken_taken lineEndSpecific ht (by simp [hk, hf])).trans hb)
  have hnon {u : State} (hf : flag1 r = false) (hb : lineEndNonSpecific r (setPhase .active s) = u) : exec i s = .next u := by
    rw [hi, hf]
    exact congrArg Host.Outcome.next ((whenTaken_taken lineEndNonSpecific ht (by simp [hk, hf])).trans hb)
  refine ⟨fun hf hl => ?noLine, fun l hf hl hout => ?out, fun hf hout => ?none, fun l h => ?ends⟩
  case noLine =>
    exact ⟨_, hspec hf (by simp only [lineEndSpecific, recordLine, hl]; rfl), endRequest_of_taken .badRequest 0 zeros8 ht⟩
  case out =>
    have hgo : endLine l (flag2 r) (setPhase .active s) = answerPlain .notInService (setPhase .active s) :=
      if_neg (by rw [show ((setPhase .active s).lineRec l).inService = false from hout]; decide)
    exact ⟨_, hspec hf (by simp only [lineEndSpecific, recordLine, hl]; exact hgo), endRequest_of_taken .notInService 0 zeros8 ht⟩
  case none =>
    have hb : bestInService (setPhase .active s) = none := bestInService_none hout
    exact ⟨_, hnon hf (by simp only [lineEndNonSpecific, hb]; rfl), endRequest_of_taken .notInService 0 zeros8 ht⟩
  case ends =>
    rcases h with ⟨hf, hl, hin⟩ | ⟨hf, hh⟩
    · exact endLine_inService ht hp hw hin (hspec hf (by simp only [lineEndSpecific, recordLine, hl]))
    · have hb : bestInService (setPhase .active s) = some l := bestInService_some hh
      exact endLine_inService ht hp hw hh.1 (hnon hf (by simp only [lineEndNonSpecific, hb]))

/-! ## Capture (R131 to R133) -/

theorem LineRec.rise_eq (r : LineRec) :
    r.rise = { r with pending := true, overrun := r.overrun || (!r.level && r.pending) } := by
  unfold LineRec.rise
  obtain ⟨level, mask, pending, inService, overrun, drain, autoEnd⟩ := r
  cases level <;> cases pending <;> simp

theorem LineRec.fall_eq (r : LineRec) : r.fall = { r with pending := r.pending && !r.level } := by
  unfold LineRec.fall
  obtain ⟨level, mask, pending, inService, overrun, drain, autoEnd⟩ := r
  cases level <;> simp

/-- With no delivery and no poll, the eligible line of highest priority becomes the candidate (R136). -/
theorem weighLines_selects {s : State} {l : Line} (hd : s.irq.delivery = none) (hp : s.irq.poll = none)
    (hw : s.irq.pollWaiting = false) (hb : bestEligible s = some l) :
    ∃ d, (weighLines s).irq.delivery = some d ∧ d.line = l := by
  have hdrop : dropDelivery s = s := by simp only [dropDelivery, hd]
  have hselect : ∃ d, (selectCandidate s).irq.delivery = some d ∧ d.line = l := by
    unfold selectCandidate
    rw [if_pos (by simp [hd, hp, hw]), hb]
    exact ⟨_, rfl, rfl⟩
  obtain ⟨d, hsel, hline⟩ := hselect
  rw [weighLines_unpolled hp hw, hdrop]
  unfold postReady
  rw [hsel]
  dsimp only
  split
  · exact ⟨_, rfl, hline⟩
  · exact ⟨d, hsel, hline⟩

/-- A captured edge, and what follows of delivery with no poll. -/
theorem captured_weighed {s : State} {l : Line} (level : Bool) (v : LineRec) (hp : s.irq.poll = none) (hw : s.irq.pollWaiting = false) :
    Within { pins := true, irq := true, staging := true, master := true, order := true } s
        (weighLines ((setIrq l level s).putLine l v)) ∧
      (weighLines ((setIrq l level s).putLine l v)).pins = { s.pins with irq := s.pins.irq.put l level } ∧
      ∀ m, (weighLines ((setIrq l level s).putLine l v)).lineRec m = if m = l then v else s.lineRec m := by
  have hw' := weighLines_unpolled_within (s := (setIrq l level s).putLine l v) hp hw
  have hirq := weighLines_unpolled_irq (s := (setIrq l level s).putLine l v) hp hw
  have hset : Within { pins := true } s (setIrq l level s) := by
    constructor <;> intro h <;> first | rfl | cases h
  refine ⟨(hset.seq (putLine_within ..) (k := { pins := true, irq := true })).seq hw', hw'.pins rfl, fun m => ?_⟩
  rw [State.lineRec, hirq]
  exact State.putLine_lineRec ..

/-- Settles O42: what is captured by trigger, and that nothing is while the slot reset line is ASSERTED. -/
theorem interruptLinesAreCaptured : Obligations.InterruptLinesAreCaptured := by
  intro s l
  have hrise : exec (.interruptLineRise l) s = .next (lineRise l s) := rfl
  have hfall : exec (.interruptLineFall l) s = .next (lineFall l s) := rfl
  refine ⟨fun h => ?high, fun h => ?low, fun ha => ⟨fun h => ?riseHeld, fun h => ?fallHeld⟩, fun ha hp hw =>
    ⟨fun h => ?rise, fun h => ?fall⟩⟩
  case high => rw [hrise, lineRise, if_pos h]
  case low =>
    rw [hfall, lineFall, h]
    rfl
  case riseHeld =>
    rw [hrise, lineRise, h]
    exact congrArg _ (if_pos ha)
  case fallHeld =>
    rw [hfall, lineFall, if_pos h]
    exact congrArg _ (if_pos ha)
  case rise =>
    obtain ⟨hwithin, hpins, hline⟩ := captured_weighed (l := l) true (s.lineRec l).rise hp hw
    have hexec : exec (.interruptLineRise l) s = .next (weighLines ((setIrq l true s).putLine l (s.lineRec l).rise)) := by
      rw [hrise, lineRise, h]
      exact congrArg _ (if_neg ha)
    refine ⟨_, hexec, hwithin, hpins, fun m hm => (hline m).trans (if_neg hm),
      (hline l).trans ((if_pos rfl).trans (LineRec.rise_eq _)), fun hd hmay hothers => ?_⟩
    have hirq := weighLines_unpolled_irq (s := (setIrq l true s).putLine l (s.lineRec l).rise) hp hw
    have hcaught : MayDeliver ((setIrq l true s).putLine l (s.lineRec l).rise) l := by
      refine (eligible_iff _ l).1 ?_
      rw [← eligible_congr (s := (setIrq l true s).putLine l (s.lineRec l).rise)
        (t := weighLines ((setIrq l true s).putLine l (s.lineRec l).rise)) (by rw [hirq]) (hwithin.settings rfl)]
      exact (eligible_iff _ l).2 hmay
    refine weighLines_selects hd hp hw (bestEligible_some hcaught fun m hm => ?_)
    by_cases hml : m = l
    · rw [hml]
    · refine absurd ?_ (hothers m hml)
      have hrec (k : Line) : ((setIrq l true s).putLine l (s.lineRec l).rise).lineRec k = if k = l then (s.lineRec l).rise else s.lineRec k :=
        State.putLine_lineRec ..
      have hserv (k : Line) : (((setIrq l true s).putLine l (s.lineRec l).rise).lineRec k).inService = (s.lineRec k).inService := by
        rw [hrec, LineRec.rise_eq]
        split
        · rename_i hk
          rw [hk]
        · rfl
      obtain ⟨h1, h2, h3, h4⟩ := hm
      rw [hrec, if_neg hml] at h1 h2 h3
      exact ⟨h1, h2, h3, fun hn k hk => h4 hn k ((hserv k).trans hk)⟩
  case fall =>
    obtain ⟨hwithin, hpins, hline⟩ := captured_weighed (l := l) false (s.lineRec l).fall hp hw
    have hexec : exec (.interruptLineFall l) s = .next (weighLines ((setIrq l false s).putLine l (s.lineRec l).fall)) := by
      rw [hfall, lineFall, if_pos h]
      exact congrArg _ (if_neg ha)
    exact ⟨_, hexec, hwithin, hpins, fun m hm => (hline m).trans (if_neg hm),
      (hline l).trans ((if_pos rfl).trans (LineRec.fall_eq _))⟩

/-! ## LINE POLL (R144, R145) -/

/-- A poll selected and no delivery: the poll's answer, and what follows of eligibility. -/
theorem weighLines_polled {s : State} {p : PollSelection} (hd : s.irq.delivery = none) (hp : s.irq.poll = some p)
    (he : eligible s p.line = true) : weighLines s = postReady (selectCandidate (answerPoll s)) := by
  have hdrop : dropDelivery s = s := by simp only [dropDelivery, hd]
  have hrepoll : repoll s = s := by simp only [repoll, hp, he, if_true]
  rw [weighLines, hdrop, hrepoll]

/-- A drain with something to wait for leaves the poll as it selected. -/
theorem weighLines_waits {s : State} {p : PollSelection} (hd : s.irq.delivery = none) (hp : s.irq.poll = some p)
    (he : eligible s p.line = true) (hc : p.waits.complete = false) : weighLines s = s := by
  have hanswer : answerPoll s = s := by
    simp only [answerPoll, hp, hc]
    rfl
  have hselect : selectCandidate s = s := by
    rw [selectCandidate, if_neg]
    simp [hp]
  rw [weighLines_polled hd hp he, hanswer, hselect]
  simp only [postReady, hd]

theorem Waits.not_complete {w : Waits} {c : Chan} (h : w.chans.get c ≠ 0) : w.complete = false := by
  simp only [Waits.complete, Bool.and_eq_false_iff, List.all_eq_false]
  exact .inr ⟨c, mem_Chan_all c, by simpa using h⟩

theorem Waits.complete_of {w : Waits} (hm : w.master = 0) (h : ∀ c, w.chans.get c = 0) : w.complete = true := by
  simp only [Waits.complete, hm, h]
  rfl

/-- The selection a poll makes of the eligible line of highest priority, before the lines are weighed afresh. -/
theorem pollSelect_eq {s : State} {l : Line} (hb : bestEligible s = some l) :
    pollSelect s = (makeDrain (s.lineRec l).drain (drainsMaster (s.lineRec l).drain s) s).putIrq { s.irq with
      poll := some { line := l, waits := drainWaits (s.lineRec l).drain (drainsMaster (s.lineRec l).drain s) s } } := by
  simp only [pollSelect, hb, makeDrain_irq]

/-! ### What a drain leaves of a channel's open run (R108) -/

theorem closeRun_stage (c d : Chan) (s : State) :
    (closeRun c s).stage d = if d = c then { s.stage c with opened := none } else s.stage d := by
  unfold closeRun
  split
  · rename_i h
    split
    · rename_i hd
      rw [hd, ← h]
    · rfl
  · exact State.putStage_stage ..

theorem flushDemand_opened_same {c : Chan} {s : State} (h : stagesToMemory (s.chan c) = true) :
    ((flushDemand c s).stage c).opened = none := by
  have hclosed : ((closeRun c s).stage c).opened = none := by rw [closeRun_stage, if_pos rfl]
  rw [flushDemand, if_pos h]
  dsimp only
  split
  · exact hclosed
  · rw [State.putStage_stage, if_pos rfl]
    exact hclosed

theorem flushDemand_stage_other {c d : Chan} (h : d ≠ c) (s : State) : (flushDemand c s).stage d = s.stage d := by
  unfold flushDemand
  dsimp only
  split
  · split
    · rw [closeRun_stage, if_neg h]
    · rw [State.putStage_stage, if_neg h, closeRun_stage, if_neg h]
  · rfl

theorem forChans_induction {P : State → Prop} {f : Chan → State → State} (h : ∀ c s, P s → P (f c s)) {s : State} (hs : P s) :
    P (forChans f s) :=
  h _ _ (h _ _ (h _ _ (h _ _ (h _ _ (h _ _ (h _ _ hs))))))

/-- What one channel's turn brings about and no channel's turn undoes, all the turns bring about. -/
theorem forChans_reaches {P Q : State → Prop} {f : Chan → State → State} (c : Chan) (hP : ∀ d s, P s → P (f d s))
    (hQ : ∀ d s, Q s → Q (f d s)) (hc : ∀ s, Q s → P (f c s)) {s : State} (hs : Q s) : P (forChans f s) := by
  unfold forChans
  cases c
  case c0 => exact hP _ _ (hP _ _ (hP _ _ (hP _ _ (hP _ _ (hP _ _ (hc _ hs))))))
  case c1 => exact hP _ _ (hP _ _ (hP _ _ (hP _ _ (hP _ _ (hc _ (hQ _ _ hs))))))
  case c2 => exact hP _ _ (hP _ _ (hP _ _ (hP _ _ (hc _ (hQ _ _ (hQ _ _ hs))))))
  case c3 => exact hP _ _ (hP _ _ (hP _ _ (hc _ (hQ _ _ (hQ _ _ (hQ _ _ hs))))))
  case c5 => exact hP _ _ (hP _ _ (hc _ (hQ _ _ (hQ _ _ (hQ _ _ (hQ _ _ hs))))))
  case c6 => exact hP _ _ (hc _ (hQ _ _ (hQ _ _ (hQ _ _ (hQ _ _ (hQ _ _ hs))))))
  case c7 => exact hc _ (hQ _ _ (hQ _ _ (hQ _ _ (hQ _ _ (hQ _ _ (hQ _ _ hs))))))

/-- A drain closes the open run of every TO MEMORY channel of its set. -/
theorem makeDrain_opened {d : PerChan Bool} {m : Bool} {c : Chan} {s : State} (hd : d.get c = true)
    (ht : stagesToMemory (s.chan c) = true) : ((makeDrain d m s).stage c).opened = none := by
  have hflush : ((forChans (fun c x => if d.get c then flushDemand c x else x) s).stage c).opened = none := by
    refine forChans_reaches (P := fun x => (x.stage c).opened = none) (Q := fun x => stagesToMemory (x.chan c) = true) c
      (fun e x hx => ?_) (fun e x hx => ?_) (fun x hx => ?_) ht
    · by_cases he : d.get e = true
      · rw [if_pos he]
        by_cases hce : c = e
        · subst hce
          by_cases hst : stagesToMemory (x.chan c) = true
          · exact flushDemand_opened_same hst
          · rw [flushDemand, if_neg hst]
            exact hx
        · rw [flushDemand_stage_other hce]
          exact hx
      · rw [if_neg he]
        exact hx
    · have hdma : (if d.get e = true then flushDemand e x else x).dma = x.dma := by
        split
        · exact (flushDemand_within e x).dma rfl
        · rfl
      rw [State.chan, hdma]
      exact hx
    · rw [if_pos hd]
      exact flushDemand_opened_same hx
  unfold makeDrain
  dsimp only
  split
  · rw [State.stage, (drainMark_within _).staging rfl]
    exact hflush
  · exact hflush

/-- The state that takes a poll's request, with no delivery and no poll: the selection of the highest line, before its answer. -/
theorem linePoll_selected {s : State} {l : Line} (r : Record) (hd : s.irq.delivery = none) (hb : bestEligible s = some l) :
    linePoll r s = weighLines ((makeDrain (s.lineRec l).drain (drainsMaster (s.lineRec l).drain s) s).putIrq { s.irq with
      poll := some { line := l, waits := drainWaits (s.lineRec l).drain (drainsMaster (s.lineRec l).drain s) s } }) := by
  rw [linePoll, hd, ← pollSelect_eq hb]
  rfl

/-- A line that delivers with no drain to wait for. -/
theorem LineRec.delivered_eq {r : LineRec} (hs : r.inService = false) (hp : r.pending = true) :
    r.delivered = { r with inService := !r.autoEnd, pending := r.level, overrun := false } := by
  unfold LineRec.delivered
  rw [hs, hp]
  cases r.autoEnd <;> cases r.level <;> rfl

/-- What follows of eligibility once a poll has been answered. -/
theorem afterAnswer_irq (s : State) : (postReady (selectCandidate s)).irq =
    { s.irq with delivery := (postReady (selectCandidate s)).irq.delivery } := by
  rw [postReady_irq, selectCandidate_irq]

/-- Settles O41: the poll waits, finds nothing, answers at once, or holds its selection behind the drain. -/
theorem linePollSelectsAndAnswers : Obligations.LinePollSelectsAndAnswers := by
  intro s x ⟨hx, hphase, hwork⟩ hk hp hw
  have ht : takenRecord s = some x.request := by simp only [takenRecord, hx, hphase, if_true]
  have hexec : exec .linePoll s = .next (linePoll x.request (setPhase .active s)) :=
    congrArg Host.Outcome.next (whenTaken_taken linePoll ht (by simp [ofKind, hk]))
  have hactive : setPhase .active s = { s with queue := { s.queue with exec := some { x with phase := .active } } } := by
    rw [setPhase, hx]
    rfl
  refine ⟨fun d hd hmay hready => ?waits, fun hd hno => ?nothing, fun l hd hmay hbest => ⟨fun hdry => ?answers, fun c hc hst hn => ?holds⟩⟩
  case waits =>
    have hgo : linePoll x.request (setPhase .active s) = weighLines ((setPhase .active s).putIrq { s.irq with pollWaiting := true }) := by
      rw [linePoll, show (setPhase .active s).irq.delivery = some d from hd]
      rfl
    rw [hexec, hgo, hactive]
    generalize hb : State.putIrq _ _ = b
    have hirq : b.irq = { s.irq with pollWaiting := true } := by rw [← hb]; rfl
    have hset : b.settings = s.settings := by rw [← hb]; rfl
    have hdel : b.irq.delivery = some d := by rw [hirq]; exact hd
    have hpoll : b.irq.poll = none := by rw [hirq]; exact hp
    have helig : eligible b d.line = true := by
      rw [eligible_congr (s := s) (by rw [hirq]) hset]
      exact (eligible_iff s d.line).2 hmay
    have hdrop : dropDelivery b = b := by simp only [dropDelivery, hdel, helig, if_true]
    have hrepoll : repoll b = b := by simp [repoll, hpoll, hdel]
    have hselect : selectCandidate b = b := by simp [selectCandidate, hdel]
    have hpost : postReady b = b := by
      simp only [postReady, hdel]
      split
      · rename_i hc
        have hd' : ({ d with posting := true } : Delivery) = d := by rw [← hready.symm.trans hc]
        rw [hd', ← hdel]
        rfl
      · rfl
    rw [weighLines, hdrop, hrepoll, answerPoll_none hpoll, hselect, hpost, ← hb]
    rfl
  case nothing =>
    have hbest : bestEligible (setPhase .active s) = none := bestEligible_none hno
    have hselect : linePoll x.request (setPhase .active s) = weighLines (answerPlain .nothing (setPhase .active s)) := by
      rw [linePoll, show (setPhase .active s).irq.delivery = none from hd, pollSelect, hbest]
      rfl
    have hwithin := answerPlain_within .nothing (setPhase .active s)
    have hirq : (answerPlain .nothing (setPhase .active s)).irq = s.irq := hwithin.irq rfl
    have hset : (answerPlain .nothing (setPhase .active s)).settings = s.settings := hwithin.settings rfl
    generalize hu : answerPlain .nothing (setPhase .active s) = u at *
    have hsame : weighLines u = u := by
      have hnone : bestEligible u = none := by
        rw [bestEligible_congr (s := setPhase .active s) (congrArg Interrupts.lines hirq) hset]
        exact hbest
      have hdel : u.irq.delivery = none := by rw [hirq]; exact hd
      have hdrop : dropDelivery u = u := by simp only [dropDelivery, hdel]
      have hsel : selectCandidate u = u := by
        rw [selectCandidate, hnone]
        exact ite_self u
      rw [weighLines_unpolled (by rw [hirq]; exact hp) (by rw [hirq]; exact hw), hdrop, hsel]
      simp only [postReady, hdel]
    refine ⟨u, by rw [hexec, hselect, hsame], ?_⟩
    rw [← hu]
    exact endRequest_of_taken .nothing 0 zeros8 ht
  case answers =>
    have hbe : bestEligible (setPhase .active s) = some l := bestEligible_some hmay hbest
    have hmaster : drainsMaster (s.lineRec l).drain (setPhase .active s) = false := by
      simp only [drainsMaster, List.any_eq_false, Bool.and_eq_true, decide_eq_true_eq]
      exact fun c _ ⟨hc, hm⟩ => (hdry c hc).1 hm
    have hcomplete : (drainWaits (s.lineRec l).drain (drainsMaster (s.lineRec l).drain (setPhase .active s))
        (setPhase .active s)).complete = true := by
      refine Waits.complete_of (by rw [hmaster]; rfl) fun c => ?_
      rw [drainWaits, drainCover, PerChan.get_ofFn, flushCover]
      split
      · rename_i hc
        split
        · rename_i hs
          exact (hdry c hc).2 hs
        · rfl
      · rfl
    have hdrain := makeDrain_within (s.lineRec l).drain (drainsMaster (s.lineRec l).drain (setPhase .active s)) (setPhase .active s)
    have hgo : linePoll x.request (setPhase .active s) = weighLines ((makeDrain (s.lineRec l).drain
        (drainsMaster (s.lineRec l).drain (setPhase .active s)) (setPhase .active s)).putIrq { s.irq with
          poll := some ⟨l, drainWaits (s.lineRec l).drain (drainsMaster (s.lineRec l).drain (setPhase .active s)) (setPhase .active s)⟩ }) :=
      linePoll_selected x.request hd hbe
    generalize makeDrain _ _ (setPhase .active s) = b at hdrain hgo
    generalize drainWaits _ _ (setPhase .active s) = w at hcomplete hgo
    have helig : eligible (b.putIrq { s.irq with poll := some ⟨l, w⟩ }) l = true := by
      rw [eligible_congr (s := setPhase .active s) (t := b.putIrq { s.irq with poll := some ⟨l, w⟩ }) rfl (hdrain.settings rfl)]
      exact (eligible_iff _ l).2 hmay
    have hanswer : answerPoll (b.putIrq { s.irq with poll := some ⟨l, w⟩ }) =
        endRequest .ok 0 [BitVec.ofNat 8 l.num, if (s.lineRec l).overrun then 1 else 0, 0, 0, 0, 0, 0, 0]
          (b.putIrq { s.irq with lines := s.irq.lines.put l (s.lineRec l).delivered, poll := none }) := by
      simp only [answerPoll, State.putIrq_irq, hcomplete, if_true]
      rfl
    generalize hpre : b.putIrq { s.irq with lines := s.irq.lines.put l (s.lineRec l).delivered, poll := none } = pre at hanswer
    have hprequeue : pre.queue = (setPhase .active s).queue := by rw [← hpre]; exact hdrain.queue rfl
    have hpreirq : pre.irq = { s.irq with lines := s.irq.lines.put l (s.lineRec l).delivered, poll := none } := by rw [← hpre]; rfl
    have hprewithin : Within Touch.draining (setPhase .active s) pre := by
      rw [← hpre]
      exact hdrain.seq (putIrq_within ..)
    have hends := endRequest_of_takenThen .ok 0
      [BitVec.ofNat 8 l.num, if (s.lineRec l).overrun then 1 else 0, 0, 0, 0, 0, 0, 0] ht hprequeue
    generalize endRequest .ok 0 _ pre = v at hanswer hends
    have hvirq : v.irq = pre.irq := hends.frame.irq rfl
    have hirq := afterAnswer_irq v
    have hfinal : exec .linePoll s = .next (postReady (selectCandidate v)) := by
      rw [hexec]
      exact congrArg _ (hgo.trans ((weighLines_polled (by exact hd) rfl helig).trans (by rw [hanswer])))
    have hline (m : Line) : (postReady (selectCandidate v)).lineRec m =
        if m = l then (s.lineRec l).delivered else s.lineRec m := by
      rw [State.lineRec, hirq, hvirq, hpreirq]
      exact PerLine.get_put ..
    obtain ⟨-, hpend, hserv, -⟩ := hmay
    refine ⟨_, v, _, hfinal, hends, hprewithin.withQueue, (selectCandidate_within v).seq (postReady_within _), ?_,
      (hline l).trans ((if_pos rfl).trans (LineRec.delivered_eq hserv hpend)), fun m hm => (hline m).trans (if_neg hm)⟩
    rw [hirq, hvirq, hpreirq]
  case holds =>
    have hbe : bestEligible (setPhase .active s) = some l := bestEligible_some hmay hbest
    have hopened := makeDrain_opened (m := drainsMaster (s.lineRec l).drain (setPhase .active s)) (s := setPhase .active s) hc hst
    have hcover : (drainWaits (s.lineRec l).drain (drainsMaster (s.lineRec l).drain (setPhase .active s))
        (setPhase .active s)).chans.get c = stagedCount c s := by
      rw [drainWaits, drainCover, PerChan.get_ofFn, if_pos hc, flushCover]
      exact if_pos hst
    have hdrain := makeDrain_within (s.lineRec l).drain (drainsMaster (s.lineRec l).drain (setPhase .active s)) (setPhase .active s)
    have hgo : linePoll x.request (setPhase .active s) = weighLines ((makeDrain (s.lineRec l).drain
        (drainsMaster (s.lineRec l).drain (setPhase .active s)) (setPhase .active s)).putIrq { s.irq with
          poll := some ⟨l, drainWaits (s.lineRec l).drain (drainsMaster (s.lineRec l).drain (setPhase .active s)) (setPhase .active s)⟩ }) :=
      linePoll_selected x.request hd hbe
    generalize hb : makeDrain _ _ (setPhase .active s) = b at hdrain hgo hopened
    generalize drainWaits _ _ (setPhase .active s) = w at hcover hgo
    have hincomplete : w.complete = false := Waits.not_complete (c := c) (by rw [hcover]; exact hn)
    have helig : eligible (b.putIrq { s.irq with poll := some ⟨l, w⟩ }) l = true := by
      rw [eligible_congr (s := setPhase .active s) (t := b.putIrq { s.irq with poll := some ⟨l, w⟩ }) rfl (hdrain.settings rfl)]
      exact (eligible_iff _ l).2 hmay
    have hfinal : exec .linePoll s = .next (b.putIrq { s.irq with poll := some ⟨l, w⟩ }) := by
      rw [hexec]
      exact congrArg _ (hgo.trans (weighLines_waits (by exact hd) rfl helig hincomplete))
    refine ⟨_, ⟨l, w⟩, hfinal, ?_, (hdrain.queue rfl).trans ?_, rfl, rfl, rfl, hcover, hopened⟩
    · exact ((setPhase_within .active s).seq hdrain (k := { irq := true, staging := true, master := true, order := true, queue := true })).seq
        (putIrq_within ..)
    · rw [hactive]

end Sys2Proof.Machine
end

section
/-! PROOF. The bus (R1, R57, R58, R63 to R66, R82, R109): grants, refresh, the slot clock, the hold limit and the age limit; the map's lookup
(R101); link reset. -/

namespace Sys2Proof.Machine

set_option Elab.async false

/-! ## Grants (R57, R58, R82) -/

theorem kickBus_owned {s : State} (h : s.arb.owner ≠ .free) : kickBus s = s := by rw [kickBus, if_neg h]

theorem applyClock_free {s : State} (h : s.arb.owner = .free) : applyClock s = s.putSlot { s.slot with clock := setClock s.settings } :=
  if_pos h

/-- With the bus free the clock change is applied, and with the line not ASSERTED a grant follows. -/
theorem kickBus_free {s : State} (h : s.arb.owner = .free) :
    kickBus s = if s.slot.line = .asserted then s.putSlot { s.slot with clock := setClock s.settings }
      else grant (s.putSlot { s.slot with clock := setClock s.settings }) := by
  rw [kickBus, if_pos h, applyClock_free h]
  rfl

theorem kickBus_grant {s : State} (h : s.arb.owner = .free) (hl : s.slot.line ≠ .asserted) :
    kickBus s = grant (s.putSlot { s.slot with clock := setClock s.settings }) := by rw [kickBus_free h, if_neg hl]

theorem grantHost_of_xfer {s : State} {x : Xfer} (h : s.xfer = some x) :
    grantHost s = beginCycle x.cycle ((setPhase .active s).putArb
      { s.arb with owner := .hostPath, hostWaiting := false, hostTurn := false, dmaCount := 0 }) := by
  simp only [grantHost, h]

theorem readyChan_none {s : State} (h : ∀ c, c ∈ s.dma.order → (s.chan c).state ≠ .ready) : readyChan s = none :=
  List.find?_eq_none.2 fun c hc => by simpa using h c hc

theorem readyChan_some {s : State} {pre post : List Chan} {c : Chan} (ho : s.dma.order = pre ++ c :: post)
    (hc : (s.chan c).state = .ready) (hp : ∀ b, b ∈ pre → (s.chan b).state ≠ .ready) : readyChan s = some c := by
  rw [readyChan, ho, List.find?_append, List.find?_eq_none.2 fun b hb => by simpa using hp b hb]
  simp [hc]

/-- A grant with nothing owed, no host turn that waits, and no READY channel. -/
theorem grant_idle {s : State} (hr : s.refresh.owed = 0) (hh : s.arb.hostWaiting = false) (hc : readyChan s = none) : grant s = s := by
  simp [grant, hr, hh, hc]

theorem grant_refresh {s : State} (h : 0 < s.refresh.owed) : grant s = grantRefresh s := if_pos h

theorem grant_hostTurn {s : State} (hr : s.refresh.owed = 0) (ht : s.arb.hostTurn = true) (hh : s.arb.hostWaiting = true) :
    grant s = grantHost s := by simp [grant, hr, ht, hh]

theorem grant_chan {s : State} {c : Chan} (hr : s.refresh.owed = 0) (ht : s.arb.hostTurn = false ∨ s.arb.hostWaiting = false)
    (hc : readyChan s = some c) : grant s = grantDma c s := by
  rcases ht with ht | ht <;> simp [grant, hr, ht, hc]

theorem grant_host {s : State} (hr : s.refresh.owed = 0) (hh : s.arb.hostWaiting = true) (hc : readyChan s = none) :
    grant s = grantHost s := by simp [grant, hr, hh, hc]

/-- A bus given back with nothing to grant stays free, with the clock applied. -/
theorem kickBus_idle {s : State} (hf : s.arb.owner = .free) (hl : s.slot.line ≠ .asserted) (hr : s.refresh.owed = 0)
    (hh : s.arb.hostWaiting = false) (hc : ∀ c, c ∈ s.dma.order → (s.chan c).state ≠ .ready) :
    kickBus s = { s with slot := { s.slot with clock := setClock s.settings } } := by
  exact (kickBus_grant hf hl).trans (grant_idle hr hh (readyChan_none hc))

/-- Settles O52: each case of the grant order is the model's own. -/
theorem grantsFollowOneOrder : Obligations.GrantsFollowOneOrder := by
  intro s
  refine ⟨kickBus_owned, fun hf ha => ?held, fun hf ha => ⟨fun hr => ?refresh, fun hr ht hh hx => ?turn, fun hr ht =>
    ⟨fun pre c post ho hc hp => ⟨fun hm => ?units, fun hm => ?master⟩, fun hn => ⟨fun hh hx => ?host, fun hh => ?idle⟩⟩⟩⟩
  case held =>
    rw [kickBus_free hf, if_pos ha]
    exact hf
  case refresh =>
    rw [(kickBus_grant hf ha).trans (grant_refresh hr)]
    rfl
  case turn =>
    obtain ⟨x, hx⟩ := Option.ne_none_iff_exists'.1 hx
    rw [(kickBus_grant hf ha).trans ((grant_hostTurn (by exact hr) (by exact ht) (by exact hh)).trans (grantHost_of_xfer (by exact hx)))]
    exact ⟨rfl, rfl, rfl, rfl⟩
  case units =>
    rw [(kickBus_grant hf ha).trans ((grant_chan (by exact hr) (by exact ht) (by exact readyChan_some ho hc hp)).trans (if_neg (by exact hm)))]
    refine ⟨rfl, ?_⟩
    exact congrArg Channel.state ((State.putChan_chan ..).trans (if_pos rfl))
  case master =>
    rw [(kickBus_grant hf ha).trans ((grant_chan (by exact hr) (by exact ht) (by exact readyChan_some ho hc hp)).trans (if_pos (by exact hm)))]
    refine ⟨rfl, rfl, ?_, rfl⟩
    exact congrArg Channel.state ((State.putChan_chan ..).trans (if_pos rfl))
  case host =>
    obtain ⟨x, hx⟩ := Option.ne_none_iff_exists'.1 hx
    rw [(kickBus_grant hf ha).trans ((grant_host (by exact hr) (by exact hh) (by exact readyChan_none hn)).trans (grantHost_of_xfer (by exact hx)))]
    exact ⟨rfl, rfl, rfl⟩
  case idle => exact kickBus_idle hf ha hr hh hn

/-! ## Refresh (R64 to R66) -/

/-- The last clock of a cycle of its kind with ready high ends it. -/
theorem lastClock_ends {mine : Cycle → Bool} {sense : Bool} {data : BusWord} {s : State} {cyc : Cycle} (hc : s.slot.cycle = some cyc)
    (hp : cyc.phase = .running) (hm : mine cyc = true) : lastClock mine sense true data s = endCycle (cyc.sensed sense) data s := by
  simp [lastClock, hc, hp, hm]

theorem lastClock_extends {mine : Cycle → Bool} {sense : Bool} {data : BusWord} {s : State} {cyc : Cycle} (hc : s.slot.cycle = some cyc)
    (hp : cyc.phase = .running) (hm : mine cyc = true) :
    lastClock mine sense false data s = { s with slot := { s.slot with
      cycle := some { cyc.sensed sense with phase := .extended }, readyTimer := some ⟨setReadyLimit s.settings, 0⟩ } } := by
  simp only [lastClock, hc, hp, hm]
  rfl

theorem Cycle.sensed_of_other {cyc : Cycle} (h : cyc.kind ≠ .word ∨ cyc.sense ≠ none) (sense : Bool) : cyc.sensed sense = cyc := by
  rw [Cycle.sensed, if_neg]
  rw [Bool.and_eq_true, decide_eq_true_eq, Option.isNone_iff_eq_none]
  exact fun ⟨h1, h2⟩ => h.elim (fun k => k h1) fun k => k h2

theorem endRefreshCycle_more {cyc : Cycle} {s : State} (h : 2 ≤ s.refresh.owed) :
    endRefreshCycle cyc s = { s with
      refresh := { s.refresh with row := s.refresh.row + 1, owed := s.refresh.owed - 1 }
      slot := { s.slot with
        lastAddr := some cyc.addr, readyTimer := none
        cycle := some { kind := .refresh, owner := .refresh, use := .row, addr := (s.refresh.row + 1).toNat, waits := 0,
                        sense := none, phase := .running, ready := false, check := false, tc := false, drive := [],
                        discard := false } } } := by
  have hne : ¬ s.refresh.owed - 1 = 0 := by omega
  unfold endRefreshCycle
  exact if_neg hne

theorem endRefreshCycle_last {cyc : Cycle} {s : State} (h : s.refresh.owed = 1) :
    endRefreshCycle cyc s = kickBus { s with
      refresh := { s.refresh with row := s.refresh.row + 1, owed := 0, episode := false }
      arb := { s.arb with owner := .free }
      slot := { s.slot with lastAddr := none, readyTimer := none, cycle := none } } := by
  have hz : s.refresh.owed - 1 = 0 := by omega
  unfold endRefreshCycle
  refine (if_pos hz).trans ?_
  simp only [freeBus, State.putSlot, State.putArb, hz]

theorem refreshExpiry_runs {s : State} (hl : s.slot.line ≠ .asserted) (hp : setRefreshPeriod s.settings ≠ 0) :
    refreshExpiry s =
      if s.refresh.owed < 4 then kickBus { s with refresh := { s.refresh with timer := 0, owed := s.refresh.owed + 1 } }
      else if s.refresh.episode then { s with refresh := { s.refresh with timer := 0 } }
      else { s with refresh := { s.refresh with timer := 0, episode := true, late := true } } := by
  have hr : refreshRuns s = true := by simp [refreshRuns, hl, hp]
  rw [refreshExpiry, if_pos hr]
  rfl

/-- Settles O18: what a refresh cycle's end and the timer's expiry come to. -/
theorem refreshIsOwedAndPaid : Obligations.RefreshIsOwedAndPaid := by
  refine ⟨fun s cyc hc hp ho hk => ?cycle, fun s => ⟨fun h => ?stopped, fun hl hp => ?runs⟩⟩
  case cycle =>
    have hs : cyc.sensed false = cyc := Cycle.sensed_of_other (.inl (by rw [hk]; decide)) false
    have hexec : exec (.refreshCycleEnd true) s = .next (endRefreshCycle cyc s) := by
      refine congrArg Host.Outcome.next ((lastClock_ends hc hp (by simp [refreshCycleOf, ho])).trans ?_)
      rw [hs, endCycle, ho]
    refine ⟨fun h => by rw [hexec, endRefreshCycle_more h], fun h hl hready hh => ?_⟩
    rw [hexec, endRefreshCycle_last h]
    exact congrArg _ (kickBus_idle rfl hl rfl hh hready)
  case stopped =>
    have hr : refreshRuns s = false := by rcases h with h | h <;> simp [refreshRuns, h]
    show Host.Outcome.next (refreshExpiry s) = _
    rw [refreshExpiry, hr]
    rfl
  case runs =>
    have hexec : exec .refreshTimerExpiry s = .next (refreshExpiry s) := rfl
    rw [hexec, refreshExpiry_runs hl hp]
    refine ⟨fun h ho => ?_, fun h ho => ?_, fun h he => ?_, fun h he => ?_⟩
    · rw [if_pos h]
      exact congrArg _ (kickBus_owned ho)
    · rw [if_pos h]
      exact congrArg _ ((kickBus_grant (s := { s with refresh := { s.refresh with timer := 0, owed := s.refresh.owed + 1 } }) ho hl).trans
        (grant_refresh (by exact Nat.succ_pos s.refresh.owed)))
    · rw [if_neg (by omega), if_neg (by rw [he]; decide)]
    · rw [if_neg (by omega), if_pos he]

/-! ## The slot clock, the hold limit and the age limit (R1, R63, R109) -/

theorem closeRun_of_opened {c : Chan} {s : State} {r : Run} (h : (s.stage c).opened = some r) :
    closeRun c s = { s with
      staging := s.staging.put c { s.stage c with opened := none }, order := s.order ++ [.write (.run c) r.hostFirst r.bytes] } := by
  simp only [closeRun, h]
  rfl

theorem closeRun_none {c : Chan} {s : State} (h : (s.stage c).opened = none) : closeRun c s = s := by simp only [closeRun, h]

theorem PerChan.put_put {α : Type} (p : PerChan α) (c : Chan) (v w : α) : (p.put c v).put c w = p.put c w := by cases c <;> rfl

/-- A flush demand with a run open, which is one with bytes to cover. -/
theorem flushDemand_of_opened {c : Chan} {s : State} {r : Run} (ht : stagesToMemory (s.chan c) = true)
    (h : (s.stage c).opened = some r) (hb : stagedCount c s ≠ 0) :
    flushDemand c s = { s with
      staging := s.staging.put c { s.stage c with opened := none, marks := (s.stage c).marks ++ [stagedCount c s] }
      order := s.order ++ [.write (.run c) r.hostFirst r.bytes] } := by
  rw [flushDemand, if_pos ht, closeRun_of_opened h]
  simp only [if_neg hb, State.putStage, State.stage, PerChan.get_put, if_true, PerChan.put_put]

theorem stagesToMemory_of {ch : Channel} (hd : ch.dir = .toMemory) (hm : ch.mode ≠ .master) : stagesToMemory ch = true := by
  simp [stagesToMemory, hd, hm]

theorem openBytes_le_stagedCount (c : Chan) (s : State) : openBytes (s.stage c) ≤ stagedCount c s := by
  unfold stagedCount
  omega

/-- A cause that becomes owed, by its three flags (R126). -/
theorem masterHoldExpiry_armed {s : State} (h : holdArmed s = true) :
    masterHoldExpiry s = { s with
      arb := { s.arb with longReported := true, meter := max s.arb.meter (setMasterHold s.settings) }
      master := { s.master with owedFault := some (addCause .long (s.arb.lastMaster.getD 0) s.master.owedFault) } } := by
  rw [masterHoldExpiry, if_pos h]
  rfl

/-- Settles O23: the three commands, each where its condition holds and where it does not. -/
theorem clockHoldAndAgeCommandsAct : Obligations.ClockHoldAndAgeCommandsAct := by
  refine ⟨fun s => ⟨fun h => ?_, fun h => ?_⟩, fun s => ⟨fun ho hh hl => ?armed, fun h => ?unarmed⟩,
    fun s c => ⟨fun r ha hr hb hd hm => ?age, fun h => ?noAge⟩⟩
  · exact congrArg Host.Outcome.next (applyClock_free h)
  · exact congrArg Host.Outcome.next (if_neg h)
  case armed =>
    have harm : holdArmed s = true := by simp [holdArmed, ho, hh, hl]
    refine ⟨_, _, congrArg Host.Outcome.next (masterHoldExpiry_armed harm), rfl, ?_, fun g hg => ?_, fun hn => ?_⟩
    · cases s.master.owedFault <;> simp [addCause]
    · rw [hg]
      exact ⟨Bool.or_false _, Bool.or_false _, rfl, rfl⟩
    · rw [hn]
      exact ⟨rfl, rfl, rfl, rfl⟩
  case unarmed =>
    have harm : holdArmed s = false := by rcases h with h | h | h <;> simp [holdArmed, h]
    exact congrArg Host.Outcome.next (by rw [masterHoldExpiry, harm]; rfl)
  case age =>
    have hn : stagedCount c s ≠ 0 := by
      have hle := openBytes_le_stagedCount c s
      have hpos : 0 < r.bytes.length := List.length_pos_iff.2 hb
      rw [openBytes, hr] at hle
      dsimp only at hle
      omega
    refine congrArg Host.Outcome.next ?_
    rw [ageExpiry, if_pos (by simp [ha, hr]), flushDemand_of_opened (stagesToMemory_of hd hm) hr hn]
  case noAge =>
    refine congrArg Host.Outcome.next ?_
    rw [ageExpiry, if_neg]
    rcases h with h | h <;> simp [h]

/-! ## The memory map's lookup (R101) -/

theorem lookupMap_miss {m : Vector Entry 32} {l : Nat} (need : Need)
    (h : ∀ e, e ∈ m.toList → e.valid = true → mapContains e l = false) : lookupMap m l need = .miss := by
  have hf : m.toList.findIdx? (fun e => e.valid && mapContains e l) = none := by
    refine List.findIdx?_eq_none_iff.2 fun e he => ?_
    cases hv : e.valid
    · rfl
    · exact h e he hv
  simp only [lookupMap, hf]

/-- The lowest-numbered valid entry that contains the address decides. -/
theorem lookupMap_decided {m : Vector Entry 32} {l i : Nat} {e : Entry} (need : Need) (hi : m.toList[i]? = some e)
    (hv : e.valid = true) (hc : mapContains e l = true)
    (hlow : ∀ j e', j < i → m.toList[j]? = some e' → e'.valid = true → mapContains e' l = false) :
    lookupMap m l need = if mapAllows e need then .found i (mapHost e l) else .denied := by
  obtain ⟨hlt, hget⟩ := List.getElem?_eq_some_iff.1 hi
  have hf : m.toList.findIdx? (fun e => e.valid && mapContains e l) = some i := by
    refine List.findIdx?_eq_some_iff_getElem.2 ⟨hlt, ?_, fun j hj => ?_⟩
    · rw [hget, hv, hc]
      rfl
    · have hj' : j < m.toList.length := hj.trans hlt
      cases hvj : m.toList[j].valid
      · simp
      · rw [hlow j _ hj (List.getElem?_eq_getElem hj') hvj]
        decide
  have hgetD : m.toList.getD i Entry.zero = e := by
    rw [List.getD_eq_getElem?_getD, hi]
    rfl
  simp only [lookupMap, hf, hgetD]

theorem mapAllows_iff (e : Entry) (need : Need) :
    mapAllows e need = true ↔ mapAccess e = 2 ∨ (need = .read ∧ mapAccess e = 0) ∨ (need = .write ∧ mapAccess e = 1) := by
  cases need <;> simp [mapAllows] <;> omega

/-- Addresses of one legacy frame lie in the same entries. -/
theorem mapContains_sameFrame {l l' : Nat} (h : l' / 4096 = l / 4096) (e : Entry) : mapContains e l' = mapContains e l := by
  refine Bool.eq_iff_iff.2 ?_
  simp only [mapContains, Bool.and_eq_true, decide_eq_true_eq]
  simp only [Config.frameBytes]
  omega

theorem lookupMap_sameFrame {m : Vector Entry 32} {l l' : Nat} {need : Need} (h : l' / 4096 = l / 4096) :
    (lookupMap m l need = .miss → lookupMap m l' need = .miss) ∧
      (lookupMap m l need = .denied → lookupMap m l' need = .denied) ∧
      (∀ i a, lookupMap m l need = .found i a → ∃ a', lookupMap m l' need = .found i a' ∧ a' + l = a + l') := by
  have hidx : m.toList.findIdx? (fun e => e.valid && mapContains e l') = m.toList.findIdx? (fun e => e.valid && mapContains e l) := by
    congr 1
    funext e
    rw [mapContains_sameFrame h]
  refine ⟨fun hm => ?_, fun hd => ?_, fun i a hf => ?_⟩
  · unfold lookupMap at hm ⊢
    rw [hidx]
    split at hm
    · rfl
    · dsimp only at hm
      split at hm <;> cases hm
  · unfold lookupMap at hd ⊢
    rw [hidx]
    split at hd
    · cases hd
    · dsimp only at hd ⊢
      split at hd
      · cases hd
      · rename_i hno
        rw [if_neg hno]
  · obtain ⟨hi, ha, hh, hc⟩ := lookupMap_found hf
    have hf' : lookupMap m l' need = .found i (mapHost (m.toList.getD i Entry.zero) l') := by
      simp only [lookupMap, hidx, hi, ha, if_true]
    refine ⟨_, hf', ?_⟩
    have hc' : mapContains (m.toList.getD i Entry.zero) l' = true := (mapContains_sameFrame h _).trans hc
    simp only [mapContains, Bool.and_eq_true, decide_eq_true_eq] at hc hc'
    simp only [Config.frameBytes] at hc hc'
    rw [hh, mapHost, mapHost, Config.frameBytes]
    omega

/-- Settles O32: the first valid entry that contains the address decides, and a legacy frame has one. -/
theorem lookupIsDecidedByTheLowestEntry : Obligations.LookupIsDecidedByTheLowestEntry := by
  intro m l need
  refine ⟨lookupMap_miss need, fun i e hi hv hc hlow => ⟨fun ha => ?_, fun h2 hr hw => ?_⟩, fun l' h => lookupMap_sameFrame h⟩
  · rw [lookupMap_decided need hi hv hc hlow, if_pos ((mapAllows_iff e need).2 ha)]
    rfl
  · rw [lookupMap_decided need hi hv hc hlow, if_neg]
    rw [mapAllows_iff]
    rintro (h | ⟨hn, h⟩ | ⟨hn, h⟩)
    · exact h2 h
    · exact hr hn h
    · exact hw hn h

/-! ## Link reset -/

theorem replicate_zero_getD (n k : Nat) : (Vector.replicate n Entry.zero).toList.getD k ⟨0, 0, 0, 0⟩ = ⟨0, 0, 0, 0⟩ := by
  rw [Vector.toList_replicate, List.getD_eq_getElem?_getD, List.getElem?_replicate]
  split <;> rfl

/-- Settles O3: link reset's value of each block, field by field. -/
theorem linkResetGivesTheListedValues : Obligations.LinkResetGivesTheListedValues := by
  have hchan (c : Chan) : State.reset.chan c = Channel.reset := PerChan.get_const ..
  have hline (l : Line) : State.reset.lineRec l = LineRec.reset := PerLine.get_const ..
  refine ⟨fun s => ⟨linkReset s, rfl, rfl, fun c => ?_, rfl⟩, rfl, rfl, rfl, rfl, rfl, rfl, rfl, replicate_zero_getD 32,
    replicate_zero_getD 32, replicate_zero_getD 64, rfl, rfl, rfl, rfl, hchan, rfl, rfl, fun l => ?_, rfl, rfl, rfl, rfl, rfl, ?_⟩
  · exact PerChan.get_ofFn ..
  · rw [hline]
    exact ⟨rfl, rfl, rfl, rfl, rfl, rfl, rfl⟩
  · decide

end Sys2Proof.Machine
end

section
/-! PROOF. The host path on the bus (R7, R29, R57, R59, R61) and the ends of the reset and settle timers (R16, R18). -/

namespace Sys2Proof.Machine

set_option Elab.async false

/-! ## A forwarded request asks for the bus (R29, R57, R59) -/

theorem requestXfer_eq (sp : Space) (rd : Bool) (e : Entry) (r : Record) : requestXfer sp rd e r = forwardedXfer sp rd e r := rfl

/-- The first cycle of a forwarded request (R2, R4). -/
theorem forwardedXfer_cycle (sp : Space) (rd : Bool) (e : Entry) (r : Record) :
    (forwardedXfer sp rd e r).cycle =
      { kind := if winWords e ∧ r.addr.toNat % 2 = 0 ∧ 2 ≤ r.sub.toNat then .word else .byte
        owner := .hostPath, use := .access sp rd, addr := r.addr.toNat, waits := winWaits e,
        sense := none, phase := .running, ready := false, check := false, tc := false,
        drive := (forwardedXfer sp rd e r).out.take (if winWords e ∧ r.addr.toNat % 2 = 0 ∧ 2 ≤ r.sub.toNat then 2 else 1)
        discard := false } := by
  have hw : wordAttempt (forwardedXfer sp rd e r) = true ↔ winWords e ∧ r.addr.toNat % 2 = 0 ∧ 2 ≤ r.sub.toNat := by
    rw [wordAttempt, Bool.and_eq_true, Bool.and_eq_true, decide_eq_true_eq, decide_eq_true_eq, and_assoc]
    rfl
  have hdrive (k : Nat) : (if (forwardedXfer sp rd e r).isRead then [] else (forwardedXfer sp rd e r).out.take k) =
      (forwardedXfer sp rd e r).out.take k := by
    cases rd
    · rfl
    · exact List.take_nil.symm
  simp only [Xfer.cycle, hw, hdrive]
  rfl

theorem slotRequest_forward {sp : Space} {rd : Bool} {r : Record} {s : State} {n : Nat} {e : Entry} (hc : slotCheck sp r)
    (hh : s.slot.held = false) (hd : Decides s n e sp r.addr.toNat) (hl : r.addr.toNat + r.sub.toNat - 1 ≤ winLimit e)
    (ha : winAction e = 0) : slotRequest sp rd r s = askBus (forwardedXfer sp rd e r) (setPhase .waiting s) := by
  rw [slotRequest_act hc hh hd hl, ← requestXfer_eq]
  simp [actOnWindow, actionRefuse, actionFill, ha]

theorem takenRecord_of {s : State} {x : Exec} (hx : s.queue.exec = some x) (hp : x.phase = .taken) : takenRecord s = some x.request := by
  simp [takenRecord, hx, hp]

theorem setPhase_of {p : ReqPhase} {s : State} {x : Exec} (hx : s.queue.exec = some x) :
    setPhase p s = { s with queue := { s.queue with exec := some { x with phase := p } } } := by
  simp only [setPhase, hx]
  rfl

/-- The host path begins to wait while another owns the bus (R59, R61). -/
theorem askBus_owned {x : Xfer} {s : State} (h : s.arb.owner ≠ .free) :
    askBus x s = { s with
      xfer := some x
      arb := { s.arb with hostWaiting := true, hostTurn := s.arb.hostTurn || (!s.arb.owner.isDma && limitReached s) } } :=
  kickBus_owned h

/-- The host path asks for a free bus that nothing ahead of it takes, and is granted it (R57). -/
theorem askBus_granted {x : Xfer} {s : State} (h : s.arb.owner = .free) (hl : s.slot.line ≠ .asserted) (hr : s.refresh.owed = 0)
    (hn : ∀ d, d ∈ s.dma.order → (s.chan d).state ≠ .ready) :
    askBus x s = { setPhase .active s with
      xfer := some x
      arb := { s.arb with owner := .hostPath, hostWaiting := false, hostTurn := false, dmaCount := 0 }
      slot := { s.slot with clock := setClock s.settings, readyTimer := none, cycle := some x.cycle } } := by
  refine (kickBus_grant (by exact h) (by exact hl)).trans ?_
  refine (grant_host (by exact hr) rfl (readyChan_none (by exact hn))).trans ?_
  exact grantHost_of_xfer rfl

/-- Settles O12: the request waits behind the owner of the bus, or the grant that follows its asking is its own. -/
theorem forwardedRequestAsksForTheBus : Obligations.ForwardedRequestAsksForTheBus := by
  intro c k sp rd hrow s x n e hx hp hk hc hh hd hl ha
  have hexec : exec c s = .next (askBus (forwardedXfer sp rd e x.request) (setPhase .waiting (setPhase .active s))) :=
    (exec_slotRow hrow (takenRecord_of hx hp) hk).trans (congrArg _ (slotRequest_forward hc (by exact hh) (by exact hd) hl ha))
  have hphase : setPhase .waiting (setPhase .active s) = { s with queue := { s.queue with exec := some { x with phase := .waiting } } } := by
    rw [setPhase_of hx]
    rfl
  rw [hexec, hphase]
  refine ⟨fun ho => congrArg _ ?_, fun ho hline hr hn => congrArg _ ?_⟩
  · rw [askBus_owned (by exact ho)]
    simp only [limitReached, Bool.and_assoc]
  · rw [askBus_granted (by exact ho) (by exact hline) (by exact hr) (by exact hn), forwardedXfer_cycle]
    rfl

/-! ## The end of a host-path cycle (R7, R29) -/

/-- What the grant after a tenure may touch while no transfer is set up. -/
theorem kickBus_within_of_idle {s : State} (hx : s.xfer = none) :
    Within { slot := true, arb := true, dma := true, master := true } s (kickBus s) := by
  have hgrant (u : State) (hu : u.xfer = none) : Within { slot := true, arb := true, dma := true, master := true } u (grant u) := by
    have hh : grantHost u = u := by simp [grantHost, hu]
    unfold grant
    refine Within.ite ((putArb_within _ u).seq (beginCycle_within _ _)) (Within.ite (by rw [hh]; exact .refl _ _) ?_)
    split
    · exact Within.ite (((putChan_within _ _ u).seq (putArb_within _ _) (k := { slot := true, arb := true, dma := true, master := true })).seq
        (invalidateLine_within _)) (((putChan_within _ _ u).seq (putArb_within _ _)
          (k := { slot := true, arb := true, dma := true, master := true })).seq (beginCycle_within _ _))
    · exact Within.ite (by rw [hh]; exact .refl _ _) (.refl _ u)
  unfold kickBus
  refine Within.ite (Within.ite ((applyClock_within s).mono (by decide)) ?_) (Within.refl _ s)
  exact (applyClock_within s).seq (hgrant _ (((applyClock_within s).xfer rfl).trans hx))

theorem pad8_eq (bs : List Byte) : pad8 bs = (bs ++ List.replicate 8 0).take 8 := rfl

/-- The outcome of a PORT or MEMORY request by its first fault (R33). -/
theorem finishSlotRequest_eq (x : Xfer) (s : State) :
    finishSlotRequest x s = endWith (x.firstFault.isSome && !x.report) ((x.firstFault.map Cause.status).getD .ok) x.moved.length
      (if x.isRead then pad8 x.moved else zeros8) s := by
  unfold finishSlotRequest
  cases x.firstFault <;> rfl

/-- The tenure of a PORT or MEMORY request ends: the request takes its outcome with the bus given back, and the grant that follows touches
no part of it. -/
theorem endHostTenure_request {x : Xfer} {s : State} {e : Exec} (hf : x.forStream = false) (he : s.queue.exec = some e) :
    ∃ u, EndsWith (x.firstFault.isSome && !x.report) e.request ((x.firstFault.map Cause.status).getD .ok) x.moved.length
        (if x.isRead then pad8 x.moved else zeros8) { freeBus s with xfer := none } u ∧
      Within { slot := true, arb := true, dma := true, master := true } u (endHostTenure x s) := by
  refine ⟨finishSlotRequest x { freeBus s with xfer := none }, ?_, ?_⟩
  · rw [finishSlotRequest_eq]
    exact endWith_ends _ _ _ _ _ _ he
  · rw [endHostTenure, hf]
    exact kickBus_within_of_idle (((finishSlotRequest_within x _).xfer rfl).trans rfl)

theorem Cycle.sensed_size {cyc : Cycle} {sense : Bool} (hk : cyc.kind ∈ [.byte, .word]) (hs : cyc.sense = none) :
    (cyc.sensed sense).size = if cyc.kind = .word ∧ sense = true then 2 else 1 := by
  simp only [List.mem_cons, List.not_mem_nil, or_false] at hk
  unfold Cycle.sensed Cycle.size
  rcases hk with hk | hk <;> cases sense <;> simp [hk, hs]

theorem Cycle.sensed_faults (cyc : Cycle) (sense : Bool) : (cyc.sensed sense).ready = cyc.ready ∧ (cyc.sensed sense).check = cyc.check := by
  unfold Cycle.sensed
  split <;> exact ⟨rfl, rfl⟩

theorem Cycle.sensed_addr (cyc : Cycle) (sense : Bool) : (cyc.sensed sense).addr = cyc.addr := by
  unfold Cycle.sensed
  split <;> rfl

theorem endCycle_host {cyc : Cycle} {data : BusWord} {s : State} {x : Xfer} (ho : cyc.owner = .hostPath) (hx : s.xfer = some x) :
    endCycle cyc data s = continueHost (x.endCycle cyc (busBytes data)) (s.putSlot { s.slot with lastAddr := some cyc.addr }) := by
  simp only [endCycle, ho, endHostCycle, hx]

/-- A cycle without a fault counts the bytes it moved (R7). -/
theorem Xfer.endCycle_plain {x : Xfer} {cyc : Cycle} {bytes : List Byte} (hr : cyc.ready = false) (hc : cyc.check = false) :
    x.endCycle cyc bytes = x.count cyc.size bytes false := by
  simp [Xfer.endCycle, hr, hc]

/-- Settles O13: the cycle counts, and the transfer goes on or its tenure ends. -/
theorem hostCycleEndMovesItsBytes : Obligations.HostCycleEndMovesItsBytes := by
  intro s cyc x x' sense data n hc hp ho hk hs hr hch hx hst hab hn hx'
  have hexec : exec (.hostCycleEnd sense true data) s =
      .next (continueHost x' (s.putSlot { s.slot with lastAddr := some cyc.addr })) := by
    refine congrArg Host.Outcome.next ((lastClock_ends hc hp (by simp [hostCycle, ho])).trans ?_)
    have hf := Cycle.sensed_faults cyc sense
    rw [endCycle_host (by rw [Cycle.sensed_owner]; exact ho) hx, Cycle.sensed_addr, Xfer.endCycle_plain (hf.1.trans hr) (hf.2.trans hch),
      Cycle.sensed_size hk hs, ← hn, hx']
    rfl
  have hover : x'.over = decide (x.left ≤ n) := by
    rw [hx']
    simp only [Xfer.over, hst, hab, Bool.or_false, decide_eq_decide]
    omega
  rw [hexec]
  refine ⟨fun h => ?_, fun h hfs e he => ?_⟩
  · rw [continueHost, hover, if_neg (by simpa using h)]
    rfl
  · rw [continueHost, hover, if_pos (by simpa using h)]
    obtain ⟨u, hends, hwithin⟩ := endHostTenure_request (x := x') (s := s.putSlot { s.slot with lastAddr := some cyc.addr })
      (by rw [hx']; exact hfs) he
    refine ⟨u, _, rfl, ?_, hwithin⟩
    have hfirst : x'.firstFault = x.firstFault := by rw [hx']
    have hread : x'.isRead = x.isRead := by rw [hx']
    have hreport : x'.report = x.report := by rw [hx']
    rw [hfirst, hread, hreport] at hends
    cases hff : x.firstFault with
    | none => rw [hff] at hends; exact hends
    | some k => rw [hff] at hends; cases k <;> exact hends

/-! ## The ends of the reset timer and the settle timer (R18) -/

theorem beginCycle_slot (cyc : Cycle) (s : State) : (beginCycle cyc s).slot = { s.slot with cycle := some cyc, readyTimer := none } := rfl

theorem grantHost_slot (s : State) : ∃ cyc rt, (grantHost s).slot = { s.slot with cycle := cyc, readyTimer := rt } := by
  unfold grantHost
  cases s.xfer with
  | none => exact ⟨_, _, rfl⟩
  | some x => exact ⟨_, _, rfl⟩

theorem grant_slot (s : State) : ∃ cyc rt, (grant s).slot = { s.slot with cycle := cyc, readyTimer := rt } := by
  unfold grant
  split
  · exact ⟨_, _, rfl⟩
  split
  · exact grantHost_slot s
  split
  · unfold grantDma
    split <;> exact ⟨_, _, rfl⟩
  · split
    · exact grantHost_slot s
    · exact ⟨_, _, rfl⟩

/-- What a grant may change of the slot cycle engine. -/
theorem kickBus_slot (s : State) : ∃ cyc rt ck, (kickBus s).slot = { s.slot with cycle := cyc, readyTimer := rt, clock := ck } := by
  by_cases hf : s.arb.owner = .free
  · rw [kickBus_free hf]
    split
    · exact ⟨_, _, _, rfl⟩
    · obtain ⟨cyc, rt, h⟩ := grant_slot (s.putSlot { s.slot with clock := setClock s.settings })
      exact ⟨cyc, rt, _, h⟩
  · rw [kickBus_owned hf]
    exact ⟨_, _, _, rfl⟩

theorem kickBus_line (s : State) : (kickBus s).slot.line = s.slot.line ∧ (kickBus s).slot.held = s.slot.held ∧
    (kickBus s).slot.pulse = s.slot.pulse := by
  obtain ⟨cyc, rt, ck, h⟩ := kickBus_slot s
  rw [h]
  exact ⟨rfl, rfl, rfl⟩

/-- The line becomes RELEASED and the request in flight ends OK; what is granted then touches no part of it (R18). -/
theorem completeReset_ends {s : State} {x : Exec} (hx : s.xfer = none) (he : s.queue.exec = some x) :
    ∃ u, EndsPlain x.request .ok { s with slot := { s.slot with line := .released, held := false, pulse := none } } u ∧
      Within { slot := true, arb := true, dma := true, master := true } u (completeReset s) ∧
      (completeReset s).slot.line = .released ∧ (completeReset s).slot.held = false ∧ (completeReset s).slot.pulse = none := by
  have hw := answerPlain_within .ok { s with slot := { s.slot with line := .released, held := false, pulse := none } }
  have hends : EndsPlain x.request .ok { s with slot := { s.slot with line := .released, held := false, pulse := none } }
      (answerPlain .ok { s with slot := { s.slot with line := .released, held := false, pulse := none } }) :=
    endRequest_ends _ _ _ _ _ (by exact he)
  refine ⟨_, hends, kickBus_within_of_idle ((hw.xfer rfl).trans hx), ?_⟩
  obtain ⟨hl, hh, hp⟩ := kickBus_line (answerPlain .ok { s with slot := { s.slot with line := .released, held := false, pulse := none } })
  have hs := hw.slot rfl
  exact ⟨hl.trans (by rw [hs]), hh.trans (by rw [hs]), hp.trans (by rw [hs])⟩

/-- The channels are placed again and the lines captured and weighed, once the line is not ASSERTED any more (R18, R71, R133). -/
def resumed (s : State) : State := causing (fun x => weighLines (forChans (placeChan true) (resumeCapture x))) s

section

variable {s : State} (hp : s.irq.poll = none) (hw : s.irq.pollWaiting = false)

include hp hw

theorem resumed_within : Within { dma := true, irq := true, staging := true, master := true, order := true } s (resumed s) := by
  have hresume : Within { irq := true } s (resumeCapture s) := putIrq_within _ s
  have hplace := hresume.seq (forChans_within (placeChan_within true) _) (k := { dma := true, irq := true })
  have hirq : (forChans (placeChan true) (resumeCapture s)).irq = (resumeCapture s).irq :=
    (forChans_within (placeChan_within true) _).irq rfl
  exact causing_within (hplace.seq (weighLines_unpolled_within (by rw [hirq]; exact hp) (by rw [hirq]; exact hw))
    (k := { dma := true, irq := true, staging := true, master := true, order := true }))

theorem resumed_lineRec (l : Line) : (resumed s).lineRec l =
    { s.lineRec l with pending := if (s.lineRec l).level then s.pins.irq.get l else (s.lineRec l).pending } := by
  have hirq : (forChans (placeChan true) (resumeCapture s)).irq = (resumeCapture s).irq :=
    (forChans_within (placeChan_within true) _).irq rfl
  rw [resumed, causing_lineRec, State.lineRec, weighLines_unpolled_irq (by rw [hirq]; exact hp) (by rw [hirq]; exact hw), hirq]
  have hfollow : (resumeCapture s).irq.lines.get l = followLevel s l (s.lineRec l) := by cases l <;> rfl
  refine hfollow.trans ?_
  unfold followLevel
  split <;> rfl

end

/-- The state in which the reset timer has ended, before what waited for it acts (R18, R67). -/
def lineFalls (p : Pulse) (s : State) : State :=
  { s with slot := { s.slot with line := .settling, pulse := some { p with elapsed := 0 } }, refresh := { s.refresh with timer := 0 } }

theorem releaseLine_eq {s : State} {p : Pulse} (hp : s.slot.pulse = some p) (hl : s.slot.line = .asserted) :
    releaseLine s = if p.settleMs = 0 then completeReset (kickBus (resumed (lineFalls p s))) else kickBus (resumed (lineFalls p s)) := by
  simp only [releaseLine, hp, hl, if_true]
  rfl

/-- What the release of the line leaves, whatever the settle time. -/
theorem lineFalls_kept {s : State} {p : Pulse} (hx : s.xfer = none) (hpoll : s.irq.poll = none) (hwait : s.irq.pollWaiting = false) :
    Within { slot := true, arb := true, dma := true, irq := true, staging := true, master := true, order := true } (lineFalls p s)
      (kickBus (resumed (lineFalls p s))) := by
  have hr := resumed_within (s := lineFalls p s) hpoll hwait
  exact hr.seq (kickBus_within_of_idle ((hr.xfer rfl).trans hx))

/-- Settles O21: the release of the line, its completion, and the two timers that do not run. -/
theorem resetTimersReleaseTheLine : Obligations.ResetTimersReleaseTheLine := by
  refine ⟨fun s p hp hl hx hpoll hwait hset => ?settling, fun s p x hp hl hx hpoll hwait hset he => ?released,
    fun s p x hp hl hx he => ?settled, fun s => ⟨fun h => ?noReset, fun h => ?noSettle⟩⟩
  case settling =>
    have hk := lineFalls_kept (p := p) hx hpoll hwait
    have hslot := (resumed_within (s := lineFalls p s) hpoll hwait).slot rfl
    obtain ⟨hline, hheld, hpulse⟩ := kickBus_line (resumed (lineFalls p s))
    refine ⟨_, congrArg Host.Outcome.next ((releaseLine_eq hp hl).trans (if_neg hset)), hline.trans (by rw [hslot]; rfl),
      hheld.trans (by rw [hslot]; rfl), hpulse.trans (by rw [hslot]; rfl), hk.refresh rfl, hk.queue rfl, hk.stream rfl,
      hk.windows rfl, hk.map rfl, hk.settings rfl, fun l => ?_⟩
    have hirq := (kickBus_within (resumed (lineFalls p s))).irq rfl
    rw [State.lineRec, hirq]
    exact resumed_lineRec (s := lineFalls p s) hpoll hwait l
  case released =>
    have hk := lineFalls_kept (p := p) hx hpoll hwait
    obtain ⟨u, hends, hwithin, hline, hheld, hpulse⟩ := completeReset_ends ((hk.xfer rfl).trans hx)
      (by rw [hk.queue rfl]; exact he : (kickBus (resumed (lineFalls p s))).queue.exec = some x)
    refine ⟨_, congrArg Host.Outcome.next ((releaseLine_eq hp hl).trans (if_pos hset)), hline, hheld, hpulse, fun hr => ?_, fun hr => ?_⟩
    · rw [hwithin.queue rfl, (hends.responds hr).2]
    · rw [hwithin.queue rfl, (hends.retires hr).records]
      exact congrArg (fun q => q.records.tail) (hk.queue rfl)
  case settled =>
    obtain ⟨u, hends, hwithin, hline, -, -⟩ := completeReset_ends hx he
    refine ⟨u, _, ?_, hends, hwithin, hline⟩
    show Host.Outcome.next (settleEnd s) = _
    simp only [settleEnd, hp, hl, if_true]
  case noReset =>
    show Host.Outcome.next (releaseLine s) = _
    unfold releaseLine
    rcases h with h | h
    · rw [h]
    · split
      · rfl
      · rw [if_neg h]
  case noSettle =>
    show Host.Outcome.next (settleEnd s) = _
    unfold settleEnd
    rcases h with h | h
    · rw [h]
    · split
      · rfl
      · rw [if_neg h]

end Sys2Proof.Machine
end

section
/-! PROOF. The requests to channels and the request lines (R71, R74, R75, R80, R81, R116): what placing a channel and granting the bus
leave of a channel's record. -/

namespace Sys2Proof.Machine

set_option Elab.async false

/-! ## What a grant comes to (R57) -/

theorem grant_cases (s : State) : grant s = s ∨ grant s = grantRefresh s ∨ grant s = grantHost s ∨
    ∃ c, (s.chan c).state = .ready ∧ grant s = grantDma c s := by
  unfold grant
  split
  · exact .inr (.inl rfl)
  split
  · exact .inr (.inr (.inl rfl))
  cases hc : readyChan s with
  | some c => exact .inr (.inr (.inr ⟨c, readyChan_ready hc, rfl⟩))
  | none =>
    simp only
    split
    · exact .inr (.inr (.inl rfl))
    · exact .inl rfl

/-- A free bus, with its clock applied, is granted or stays free; an owned one is left alone. -/
theorem kickBus_cases (s : State) : kickBus s = s ∨ s.arb.owner = .free ∧
    (kickBus s = s.putSlot { s.slot with clock := setClock s.settings } ∨
      kickBus s = grantRefresh (s.putSlot { s.slot with clock := setClock s.settings }) ∨
      kickBus s = grantHost (s.putSlot { s.slot with clock := setClock s.settings }) ∨
      ∃ c, (s.chan c).state = .ready ∧ kickBus s = grantDma c (s.putSlot { s.slot with clock := setClock s.settings })) := by
  by_cases hf : s.arb.owner = .free
  · refine .inr ⟨hf, ?_⟩
    rw [kickBus_free hf]
    split
    · exact .inl rfl
    · exact grant_cases _
  · exact .inl (kickBus_owned hf)

theorem grantDma_chan_of_ne {c d : Chan} (h : d ≠ c) (s : State) : (grantDma c s).chan d = s.chan d := by
  unfold grantDma
  split
  · exact (State.putChan_chan ..).trans (if_neg h)
  · exact (State.putChan_chan ..).trans (if_neg h)

/-- A grant changes no channel but a READY one. -/
theorem kickBus_chan {s : State} {c : Chan} (h : (s.chan c).state ≠ .ready) : (kickBus s).chan c = s.chan c := by
  rcases kickBus_cases s with h0 | ⟨-, h0 | h0 | h0 | ⟨d, hd, h0⟩⟩ <;> rw [h0]
  · rfl
  · rfl
  · unfold grantHost
    cases hx : s.xfer <;> simp only [State.putSlot_xfer, hx] <;> rfl
  · exact grantDma_chan_of_ne (fun hcd => h (by rw [hcd]; exact hd)) _

/-- A grant to a master card is one to a READY channel. -/
theorem kickBus_masterChan {s : State} (ho : s.arb.owner ≠ .master) (h : (kickBus s).arb.owner = .master) :
    ∃ c, (s.chan c).state = .ready ∧ (kickBus s).arb.masterChan = some c := by
  rcases kickBus_cases s with h0 | ⟨hf, h0 | h0 | h0 | ⟨d, hd, h0⟩⟩ <;> rw [h0] at h ⊢
  · exact absurd h ho
  · exact absurd h ho
  · cases h
  · unfold grantHost at h
    cases hx : s.xfer <;> simp only [State.putSlot_xfer, hx] at h
    · exact absurd h ho
    · cases h
  · refine ⟨d, hd, ?_⟩
    unfold grantDma at h ⊢
    split at h
    · rw [if_pos ‹_›]; rfl
    · cases h

/-- Of the master port a grant changes the read line and its fill only (R125). -/
theorem kickBus_master (s : State) : (kickBus s).master =
    { s.master with readLine := (kickBus s).master.readLine, fill := (kickBus s).master.fill } := by
  rcases kickBus_cases s with h0 | ⟨-, h0 | h0 | h0 | ⟨d, -, h0⟩⟩ <;> rw [h0]
  · rfl
  · rfl
  · unfold grantHost
    cases hx : s.xfer <;> simp only [State.putSlot_xfer, hx] <;> rfl
  · unfold grantDma
    split <;> rfl

/-! ## Placing a channel (R71) -/

theorem recordFault_putChan (f : ChanFault) (a : Nat) (c : Chan) (v : Channel) (s : State) :
    recordFault f a c (s.putChan c v) = s.putChan c (v.withFault f a) := by
  rw [recordFault, State.putChan_chan, if_pos rfl, putChan_putChan]

/-- A placeable channel enters its place, and may be told STARVED on the way. -/
theorem placeChan_cases (b : Bool) {c : Chan} {s : State} (h : (s.chan c).state.placeable = true) :
    ∃ v, placeChan b c s = s.putChan c v ∧ (v = { s.chan c with state := placedState c s } ∨
      ∃ a, v = Channel.withFault { s.chan c with state := placedState c s } .starved a) := by
  rw [placeChan, if_pos h]
  dsimp only
  split
  · exact ⟨_, recordFault_putChan .., .inr ⟨_, rfl⟩⟩
  · exact ⟨_, rfl, .inl rfl⟩

theorem placeChan_of_not_placeable {b : Bool} {c : Chan} {s : State} (h : (s.chan c).state.placeable = false) : placeChan b c s = s := by
  simp [placeChan, h]

/-- Placing that starves no one moves the state of the channel only. -/
theorem placeChan_quietly {c : Chan} {s : State} (h : (s.chan c).state.placeable = true) :
    placeChan false c s = s.putChan c { s.chan c with state := placedState c s } := by
  simp [placeChan, h]

theorem placeChan_other {b : Bool} {c d : Chan} (h : d ≠ c) (s : State) : (placeChan b c s).chan d = s.chan d := by
  cases hp : (s.chan c).state.placeable
  · rw [placeChan_of_not_placeable hp]
  · obtain ⟨v, hv, -⟩ := placeChan_cases b hp
    rw [hv, State.putChan_chan, if_neg h]

theorem placeChan_order (b : Bool) (c : Chan) (s : State) : (placeChan b c s).dma.order = s.dma.order := by
  cases hp : (s.chan c).state.placeable
  · rw [placeChan_of_not_placeable hp]
  · obtain ⟨v, hv, -⟩ := placeChan_cases b hp
    rw [hv]
    rfl

theorem placeChan_state {b : Bool} {c : Chan} {s : State} (h : (s.chan c).state.placeable = true) :
    ((placeChan b c s).chan c).state = placedState c s := by
  obtain ⟨v, hv, hv' | ⟨a, hv'⟩⟩ := placeChan_cases b h <;> rw [hv, State.putChan_chan, if_pos rfl, hv']
  rfl

/-- What placing may move of the channel's record: its state, and its faults by STARVED. -/
theorem placeChan_chan (b : Bool) (c : Chan) (s : State) : (placeChan b c s).chan c = { s.chan c with
    state := ((placeChan b c s).chan c).state, faults := ((placeChan b c s).chan c).faults
    firstFault := ((placeChan b c s).chan c).firstFault, owedFaults := ((placeChan b c s).chan c).owedFaults
    owedAddr := ((placeChan b c s).chan c).owedAddr } := by
  cases hp : (s.chan c).state.placeable
  · rw [placeChan_of_not_placeable hp]
  · obtain ⟨v, hv, hv' | ⟨a, hv'⟩⟩ := placeChan_cases b hp <;> rw [hv, State.putChan_chan, if_pos rfl, hv']
    rfl

/-! ## CHANNEL PROGRAM (R74) -/

/-- The direction that a listed mode word holds. -/
def listedDir (w : Word) : Direction :=
  match field w 2 2 with
  | 0 => .toMemory
  | 1 => .fromMemory
  | _ => .verify

theorem directionOf_listed {w : Word} (h : field w 2 2 ≠ 3) : directionOf w = some (listedDir w) := by
  have hlt := field_lt w 2 2
  have h3 : field w 2 2 = 0 ∨ field w 2 2 = 1 ∨ field w 2 2 = 2 := by omega
  rcases h3 with h3 | h3 | h3 <;> simp [directionOf, listedDir, h3]

theorem thresholdOf_listed {w : Word} (h : field w 8 3 ≤ 4) : thresholdOf w = some (8 * 2 ^ field w 8 3) := by
  have h5 : field w 8 3 = 0 ∨ field w 8 3 = 1 ∨ field w 8 3 = 2 ∨ field w 8 3 = 3 ∨ field w 8 3 = 4 := by omega
  rcases h5 with h5 | h5 | h5 | h5 | h5 <;> simp [thresholdOf, h5]

theorem modeWord_listed {w : Word} (h : modeWordListed w) : modeWord w = some (listedDir w, 8 * 2 ^ field w 8 3, field w 16 9) := by
  obtain ⟨hd, ht, h16, hlo, hhi⟩ := h
  have hl : prefetchLimitOf w = some (field w 16 9) := if_pos ⟨h16, hlo, hhi⟩
  simp only [modeWord, directionOf_listed hd, thresholdOf_listed ht, hl]

theorem modeWord_not_listed {w : Word} (h : ¬ modeWordListed w) : modeWord w = none := by
  by_cases hd : field w 2 2 = 3
  · simp [modeWord, directionOf, hd]
  · by_cases ht : field w 8 3 ≤ 4
    · have hl : prefetchLimitOf w = none := if_neg fun ⟨h16, hlo, hhi⟩ => h ⟨hd, ht, h16, hlo, hhi⟩
      simp [modeWord, hl]
    · have hlt := field_lt w 8 3
      have h3 : field w 8 3 = 5 ∨ field w 8 3 = 6 ∨ field w 8 3 = 7 := by omega
      have hn : thresholdOf w = none := by rcases h3 with h3 | h3 | h3 <;> simp [thresholdOf, h3]
      simp [modeWord, hn]

theorem recordBlockGood_iff (r : Record) : recordBlockGood r = true ↔ blockListed r := by
  rw [recordBlockGood, Bool.and_eq_true, decide_eq_true_eq, decide_eq_true_eq, field_top r.value (by decide), field_top r.mask (by decide)]
  unfold blockListed
  omega

theorem recordBlock_eq (r : Record) : recordBlock r = carriedBlock r := by
  simp only [recordBlock, carriedBlock, field_eq_extract, BitVec.ofNat_toNat, BitVec.setWidth_eq]

theorem channelProgram_bad {r : Record} {s : State}
    (h : recordChan r = none ∨ modeWord r.addr = none ∨ recordBlockGood r = false) : channelProgram r s = answerPlain .badRequest s := by
  unfold channelProgram
  cases hc : recordChan r with
  | none => rfl
  | some c =>
    cases hm : modeWord r.addr with
    | none => rfl
    | some m =>
      rw [hc, hm] at h
      have hb : recordBlockGood r = false := by simpa using h
      rw [hb]

theorem channelProgram_good {r : Record} {c : Chan} {s : State} (hc : recordChan r = some c) (hm : modeWordListed r.addr)
    (hb : blockListed r) : channelProgram r s = if (s.chan c).state.atRest
      then answerPlain .ok (startCursor c (s.putChan c (programmed r (listedDir r.addr) (8 * 2 ^ field r.addr 8 3) (field r.addr 16 9))))
      else answerPlain .busy s := by
  simp only [channelProgram, hc, modeWord_listed hm, (recordBlockGood_iff r).2 hb]

theorem startCursor_putChan (c : Chan) (ch : Channel) (s : State) : startCursor c (s.putChan c ch) = { s with
    dma := { s.dma with chans := s.dma.chans.put c ch }
    staging := s.staging.put c { s.stage c with chunks := [], cursor := ⟨ch.page, ch.curAddr, ch.curCount, .reading, .no⟩ } } := by
  rw [startCursor, State.putChan_chan, if_pos rfl]
  rfl

theorem atRest_iff (st : ChanState) : st.atRest = true ↔ st = .idle ∨ st = .finished := by cases st <;> simp [ChanState.atRest]

/-- Settles O26: the checks in their order, and the record and cursor that the load leaves. -/
theorem channelProgramLoadsTheRecord : Obligations.ChannelProgramLoadsTheRecord := by
  intro s r ht hk
  have ends {st : Status} {v : State} (hv : v.queue = s.queue) (h : channelProgram r (setPhase .active s) = answerPlain st (setPhase .active v)) :
      ∃ t, exec .channelProgram s = .next t ∧ EndsPlain r st v t :=
    ends_of_taken rfl ht (by simp [ofKind, hk]) (by simpa [takenRecord, hv] using ht) h
  refine ⟨fun hbad => ends rfl (channelProgram_bad ?_), fun c hc hm hb => ⟨fun hi hf => ends rfl ?_, fun hrest => ends rfl ?_⟩⟩
  · refine hbad.imp id (Or.imp modeWord_not_listed fun hb => ?_)
    rwa [← recordBlockGood_iff, Bool.not_eq_true] at hb
  · exact (channelProgram_good hc hm hb).trans (if_neg fun h => ((atRest_iff _).1 h).elim hi hf)
  · refine ((channelProgram_good hc hm hb).trans (if_pos (by exact (atRest_iff _).2 hrest))).trans (congrArg (answerPlain .ok) ?_)
    rw [startCursor_putChan, programmed, recordBlock_eq]
    rfl

/-! ## CHANNEL NEXT (R75, R116) -/

theorem channelNext_bad {r : Record} {s : State} (h : recordChan r = none ∨ recordBlockGood r = false) :
    channelNext r s = answerPlain .badRequest s := by
  unfold channelNext
  cases hc : recordChan r with
  | none => rfl
  | some c =>
    have hb : recordBlockGood r = false := by simpa [hc] using h
    rw [hb]

theorem channelNext_good {r : Record} {c : Chan} {s : State} (hc : recordChan r = some c) (hb : blockListed r) :
    channelNext r s = if (s.chan c).mode = .master then answerPlain .badRequest s
      else if (s.chan c).nextBlock.isSome then answerPlain .collision s else answerPlain .ok (holdNext c (carriedBlock r) s) := by
  simp only [channelNext, hc, (recordBlockGood_iff r).2 hb, recordBlock_eq]

/-- The block is held and the cursor has followed, before the channel is placed. -/
def nextHeld (c : Chan) (b : Block) (s : State) : State :=
  if (s.chan c).dir = .fromMemory then cursorNext c b (s.putChan c { s.chan c with nextBlock := some b })
  else s.putChan c { s.chan c with nextBlock := some b }

theorem holdNext_eq (c : Chan) (b : Block) (s : State) : holdNext c b s = placeChan false c (nextHeld c b s) := rfl

theorem cursorNext_cases (c : Chan) (b : Block) (s : State) : cursorNext c b s =
    if (s.stage c).cursor.passed = .reload then
      s.putStage c { s.stage c with chunks := (s.stage c).chunks.filter (fun k => !k.beyond), cursor := cursorTakes b }
    else if (s.stage c).cursor.passed = .no ∧ (s.stage c).cursor.state = .atEnd then
      s.putStage c { s.stage c with cursor := cursorTakes b }
    else s := by
  unfold cursorNext
  cases hp : (s.stage c).cursor.passed <;> simp [hp]

theorem cursorNext_stage_other {c d : Chan} (h : d ≠ c) (b : Block) (s : State) : (cursorNext c b s).stage d = s.stage d := by
  rw [cursorNext_cases]
  split
  · rw [State.putStage_stage, if_neg h]
  · split
    · rw [State.putStage_stage, if_neg h]
    · rfl

theorem nextHeld_dma (c : Chan) (b : Block) (s : State) :
    (nextHeld c b s).dma = (s.putChan c { s.chan c with nextBlock := some b }).dma := by
  unfold nextHeld
  split
  · exact (cursorNext_within c b _).dma rfl
  · rfl

theorem nextHeld_chan (c : Chan) (b : Block) (s : State) (d : Chan) :
    (nextHeld c b s).chan d = if d = c then { s.chan c with nextBlock := some b } else s.chan d :=
  (congrArg (fun x => x.chans.get d) (nextHeld_dma c b s)).trans (State.putChan_chan ..)

theorem cursorNext_putChan (c : Chan) (b : Block) (v : Channel) (s : State) :
    cursorNext c b (s.putChan c v) = (cursorNext c b s).putChan c v := by
  have hstage : (s.putChan c v).stage c = s.stage c := rfl
  rw [cursorNext_cases, cursorNext_cases, hstage]
  split
  · rfl
  · split <;> rfl

theorem nextHeld_stage (c : Chan) (b : Block) (s : State) (d : Chan) : (nextHeld c b s).stage d =
    if (s.chan c).dir = .fromMemory then (cursorNext c b s).stage d else s.stage d := by
  unfold nextHeld
  split
  · rw [cursorNext_putChan]
    rfl
  · rfl

theorem holdNext_stage (c : Chan) (b : Block) (s : State) : (holdNext c b s).staging = (nextHeld c b s).staging :=
  (placeChan_within false c _).staging rfl

/-- What holding a block leaves of the channel's record. -/
theorem holdNext_chan (c : Chan) (b : Block) (s : State) :
    (holdNext c b s).chan c = { s.chan c with nextBlock := some b, state := ((holdNext c b s).chan c).state } ∧
      ((s.chan c).state.placeable = false → ((holdNext c b s).chan c).state = (s.chan c).state) := by
  have hc : (nextHeld c b s).chan c = { s.chan c with nextBlock := some b } := (nextHeld_chan c b s c).trans (if_pos rfl)
  rw [holdNext_eq]
  cases hp : (s.chan c).state.placeable
  · rw [placeChan_of_not_placeable (by rw [hc]; exact hp), hc]
    exact ⟨rfl, fun _ => rfl⟩
  · rw [placeChan_quietly (by rw [hc]; exact hp), State.putChan_chan, if_pos rfl, hc]
    exact ⟨rfl, fun h => Bool.noConfusion h⟩

theorem holdNext_other {c d : Chan} (h : d ≠ c) (b : Block) (s : State) :
    (holdNext c b s).chan d = s.chan d ∧ (holdNext c b s).stage d = s.stage d := by
  refine ⟨?_, ?_⟩
  · rw [holdNext_eq, placeChan_other h, nextHeld_chan, if_neg h]
  · rw [State.stage, holdNext_stage, ← State.stage, nextHeld_stage]
    split
    · exact cursorNext_stage_other h b s
    · rfl

/-- Settles O27: the checks in their order, the block held, and the cursor by what it has passed. -/
theorem channelNextHoldsABlock : Obligations.ChannelNextHoldsABlock := by
  intro s r ht hk
  have hexec {u : State} (h : channelNext r (setPhase .active s) = u) : exec .channelNext s = .next u :=
    congrArg Host.Outcome.next ((whenTaken_taken channelNext ht (by simp [ofKind, hk])).trans h)
  refine ⟨fun hbad => ⟨_, hexec (channelNext_bad (hbad.imp id fun hb => ?_)), endRequest_of_taken .badRequest 0 zeros8 ht⟩,
    fun c hc hb => ⟨fun hm => ?_, fun hm hn => ?_, fun hm hn => ?_⟩⟩
  · rwa [← recordBlockGood_iff, Bool.not_eq_true] at hb
  · exact ⟨_, hexec ((channelNext_good hc hb).trans (if_pos hm)), endRequest_of_taken .badRequest 0 zeros8 ht⟩
  · exact ⟨_, hexec ((channelNext_good hc hb).trans ((if_neg hm).trans (if_pos (Option.isSome_iff_ne_none.2 hn)))),
      endRequest_of_taken .collision 0 zeros8 ht⟩
  · have hw := holdNext_within c (carriedBlock r) (setPhase .active s)
    have hstage : (holdNext c (carriedBlock r) (setPhase .active s)).stage c =
        if (s.chan c).dir = .fromMemory then (cursorNext c (carriedBlock r) (setPhase .active s)).stage c else s.stage c := by
      rw [State.stage, holdNext_stage]
      exact nextHeld_stage c (carriedBlock r) (setPhase .active s) c
    refine ⟨_, _, hexec ((channelNext_good hc hb).trans ((if_neg hm).trans (if_neg (by rw [show (setPhase .active s).chan c = s.chan c from rfl, hn]; decide)))),
      endRequest_of_takenThen .ok 0 zeros8 ht (hw.queue rfl), hw.withQueue, (holdNext_chan c _ (setPhase .active s)).1,
      fun d hd => holdNext_other hd (carriedBlock r) (setPhase .active s), ?order, (holdNext_chan c _ (setPhase .active s)).2,
      fun hd => ?still, fun hd => ?cursor⟩
    case order =>
      show (holdNext c (carriedBlock r) (setPhase .active s)).dma.order = _
      rw [holdNext_eq, placeChan_order, nextHeld_dma]
      rfl
    case still =>
      show (holdNext c (carriedBlock r) (setPhase .active s)).staging = _
      rw [holdNext_stage, nextHeld, if_neg (by exact hd)]
      rfl
    case cursor =>
      rw [if_pos hd, cursorNext_cases] at hstage
      have hsame : (setPhase .active s).stage c = s.stage c := rfl
      rw [hsame] at hstage
      refine ⟨fun h => ?_, fun h => ?_, fun h => ?_⟩
      · show ((holdNext c (carriedBlock r) (setPhase .active s)).stage c).cursor = _
        rw [hstage]
        rcases h with h | h
        · rw [if_neg (by rw [h.1]; decide), if_pos h, State.putStage_stage, if_pos rfl]
          rfl
        · rw [if_pos h, State.putStage_stage, if_pos rfl]
          rfl
      · show ((holdNext c (carriedBlock r) (setPhase .active s)).stage c).chunks = _
        rw [hstage, if_pos h, State.putStage_stage, if_pos rfl]
      · refine hstage.trans ?_
        rcases h with h | h
        · rw [if_neg (by rw [h.1]; decide), if_neg fun hh => h.2 hh.2]
          rfl
        · rw [if_neg (by rw [h]; decide), if_neg fun hh => by rw [h] at hh; cases hh.1]
          rfl

/-! ## CHANNEL REQUEST and CHANNEL STATUS (R80, R81) -/

/-- The soft request has no part in what staging can serve. -/
theorem canServe_soft (on : Bool) (c : Chan) (s : State) : canServe c (s.putChan c { s.chan c with soft := on }) = canServe c s := by
  rw [canServe, State.putChan_chan, if_pos rfl]
  rfl

theorem requestActive_soft {on : Bool} {c : Chan} {s : State} (hm : (s.chan c).mode ≠ .master) :
    requestActive c (s.putChan c { s.chan c with soft := on }) = true ↔
      (s.pins.dreq.get c ∧ s.slot.line ≠ .asserted) ∨ on ∨ ((s.chan c).mode = .block ∧ (s.chan c).blockRun) := by
  rw [requestActive, State.putChan_chan, if_pos rfl]
  simp only [Bool.or_eq_true, Bool.and_eq_true, decide_eq_true_eq, or_assoc]
  simp [hm]

/-- The causes of an event of the request in flight apart, a channel's record is what the event left. -/
theorem causing_chan_eq (event : State → State) (s : State) (c : Chan) :
    (causing event s).chan c = { (event s).chan c with faultCauses := ((causing event s).chan c).faultCauses } := by
  rw [causing_chan]
  split <;> rfl

theorem causing_chan_of_eq {event : State → State} {s : State} {c : Chan} (h : ((event s).chan c).owedFaults = (s.chan c).owedFaults) :
    (causing event s).chan c = (event s).chan c := by
  rw [causing_chan, if_pos h]

theorem channelRequest_none {on : Bool} {r : Record} {s : State} (hc : recordChan r = none) :
    channelRequest on r s = answerPlain .badRequest s := by
  simp only [channelRequest, hc]

theorem channelRequest_some {on : Bool} {r : Record} {c : Chan} {s : State} (hc : recordChan r = some c) :
    channelRequest on r s = if (s.chan c).mode = .master then answerPlain .badRequest s
      else answerPlain .ok (kickBus (setSoft on c s)) := by
  simp only [channelRequest, hc]

theorem exec_channelRequest {on : Bool} {i : Instr} {s : State} {r : Record}
    (hi : i = (if on then .channelRequestSet else .channelRequestClear)) (ht : takenRecord s = some r) (hk : r.kind = .channelRequest)
    (hf : flag1 r = on) : exec i s = .next (channelRequest on r (setPhase .active s)) := by
  subst hi
  cases on
  · exact congrArg Host.Outcome.next (whenTaken_taken (channelRequest false) ht (by simp [hk, hf]))
  · exact congrArg Host.Outcome.next (whenTaken_taken (channelRequest true) ht (by simp [hk, hf]))

/-- The record of a channel whose soft request is written and that is placed. -/
theorem setSoft_chan (on : Bool) (c : Chan) (s : State) : ((setSoft on c s).chan c).soft = on ∧
    ((setSoft on c s).chan c).mask = (s.chan c).mask ∧
    ((s.chan c).state.placeable = false → (setSoft on c s).chan c = { s.chan c with soft := on }) ∧
    ((s.chan c).state.placeable = true → (s.chan c).mode ≠ .master → ((setSoft on c s).chan c).state =
      if (s.pins.dreq.get c ∧ s.slot.line ≠ .asserted) ∨ on ∨ ((s.chan c).mode = .block ∧ (s.chan c).blockRun) then
        (if canServe c s then .ready else .stalled)
      else .waiting) ∧
    ((setSoft on c s).chan c).faultCauses = (s.chan c).faultCauses ++
      (if ((setSoft on c s).chan c).owedFaults = (s.chan c).owedFaults then [] else [s.queue.number]) := by
  have hput : (s.putChan c { s.chan c with soft := on }).chan c = { s.chan c with soft := on } := (State.putChan_chan ..).trans (if_pos rfl)
  have hplaced := placeChan_chan true c (s.putChan c { s.chan c with soft := on })
  rw [hput] at hplaced
  have hcause := causing_chan_eq (fun x => placeChan true c (x.putChan c { x.chan c with soft := on })) s c
  have hsoft : setSoft on c s = causing (fun x => placeChan true c (x.putChan c { x.chan c with soft := on })) s := rfl
  rw [← hsoft] at hcause
  dsimp only at hcause
  refine ⟨by rw [hcause, hplaced], by rw [hcause, hplaced], fun hp => ?_, fun hp hm => ?_, ?_⟩
  · have hstay : placeChan true c (s.putChan c { s.chan c with soft := on }) = s.putChan c { s.chan c with soft := on } :=
      placeChan_of_not_placeable (by rw [hput]; exact hp)
    rw [hsoft, causing_chan_of_eq (by dsimp only; rw [hstay, hput])]
    dsimp only
    rw [hstay, hput]
  · rw [hcause]
    show ((placeChan true c (s.putChan c { s.chan c with soft := on })).chan c).state = _
    rw [placeChan_state (by rw [hput]; exact hp), placedState, canServe_soft]
    by_cases hr : (s.pins.dreq.get c ∧ s.slot.line ≠ .asserted) ∨ on ∨ ((s.chan c).mode = .block ∧ (s.chan c).blockRun)
    · rw [if_pos hr, if_pos ((requestActive_soft hm).2 hr)]
    · rw [if_neg hr, if_neg fun h => hr ((requestActive_soft hm).1 h)]
  · have howed : ((setSoft on c s).chan c).owedFaults = ((placeChan true c (s.putChan c { s.chan c with soft := on })).chan c).owedFaults := by
      rw [hcause]
    rw [howed, hsoft, causing_chan]
    dsimp only
    split
    · rw [hplaced, List.append_nil]
    · rw [hplaced]

theorem setSoft_other {c d : Chan} (h : d ≠ c) (on : Bool) (s : State) : (setSoft on c s).chan d = s.chan d := by
  have hd : (placeChan true c (s.putChan c { s.chan c with soft := on })).chan d = s.chan d := by
    rw [placeChan_other h, State.putChan_chan, if_neg h]
  exact (causing_chan_of_eq (by rw [hd])).trans hd

theorem channelStatus_some {r : Record} {c : Chan} {s : State} (hc : recordChan r = some c) :
    channelStatus r s = endRequest .ok (stagedCount c s) (statusData c s) (clearTc (flag1 r) c s) := by
  simp only [channelStatus, hc]

theorem clearTc_eq (clear : Bool) (c : Chan) (s : State) :
    clearTc clear c s = s.putChan c { s.chan c with tcFlag := (s.chan c).tcFlag && !clear } := by
  cases clear
  · rw [clearTc, if_neg (by decide), Bool.not_false, Bool.and_true]
    exact (putChan_chan_self c s).symm
  · rw [clearTc, if_pos rfl, Bool.not_true, Bool.and_false]

theorem le16_toNat (a : BitVec 16) : le16 a.toNat = [a.extractLsb' 0 8, a.extractLsb' 8 8] := by
  have h0 : BitVec.ofNat 8 a.toNat = a.extractLsb' 0 8 := by
    apply BitVec.eq_of_toNat_eq
    simp
  have h1 : BitVec.ofNat 8 (a.toNat / 256) = a.extractLsb' 8 8 := by
    apply BitVec.eq_of_toNat_eq
    simp [Nat.shiftRight_eq_div_pow]
  rw [le16, h0, h1]

theorem statusFlags_eq (c : Chan) (s : State) : statusFlags c s =
    (if (s.chan c).mask then 1 else 0) + (if (s.chan c).soft then 2 else 0) + (if s.pins.dreq.get c then 4 else 0) +
      (if (s.chan c).blockRun then 8 else 0) + (if (s.chan c).nextBlock.isSome then 16 else 0) + (if (s.chan c).tcFlag then 32 else 0) := rfl

/-- Settles O30: the soft request written and the channel placed; the status read as the channel stands. -/
theorem channelRequestAndStatus : Obligations.ChannelRequestAndStatus := by
  refine ⟨fun on i s r hi ht hk hf => ?request, fun s r ht hk => ?status⟩
  case request =>
    have hexec := exec_channelRequest hi ht hk hf
    refine ⟨fun hc => ⟨_, hexec.trans (congrArg _ (channelRequest_none hc)), endRequest_of_taken .badRequest 0 zeros8 ht⟩,
      fun c hc hm => ⟨_, hexec.trans (congrArg _ ((channelRequest_some hc).trans (if_pos hm))), endRequest_of_taken .badRequest 0 zeros8 ht⟩,
      fun c hc hm ho => ?_⟩
    have hw := setSoft_within on c (setPhase .active s)
    obtain ⟨hsoft, hmask, hstay, hplace, hcauses⟩ := setSoft_chan on c (setPhase .active s)
    have hkick : kickBus (setSoft on c (setPhase .active s)) = setSoft on c (setPhase .active s) :=
      kickBus_owned (by rw [hw.arb rfl]; exact ho)
    exact ⟨_, _, hexec.trans (congrArg _ ((channelRequest_some hc).trans ((if_neg hm).trans (congrArg (answerPlain .ok) hkick)))),
      endRequest_of_takenThen .ok 0 zeros8 ht (hw.queue rfl), hw.withQueue, hsoft, fun d hd => setSoft_other hd on (setPhase .active s),
      hmask, hstay, fun hp => hplace hp hm, hcauses⟩
  case status =>
    have hexec {u : State} (h : channelStatus r (setPhase .active s) = u) : exec .channelStatus s = .next u :=
      congrArg Host.Outcome.next ((whenTaken_taken channelStatus ht (by simp [ofKind, hk])).trans h)
    refine ⟨fun hc => ⟨_, hexec (by simp only [channelStatus, recordChan, hc]; rfl), endRequest_of_taken .badRequest 0 zeros8 ht⟩,
      fun c b0 b1 hc hb0 hb1 => ⟨_, hexec (channelStatus_some hc), ?_⟩⟩
    have hdata : statusData c (setPhase .active s) = [b0, BitVec.ofNat 8 b1, (s.chan c).page, (s.chan c).faults.setWidth 8,
        (s.chan c).curAddr.extractLsb' 0 8, (s.chan c).curAddr.extractLsb' 8 8,
        (s.chan c).curCount.extractLsb' 0 8, (s.chan c).curCount.extractLsb' 8 8] := by
      have hcode : BitVec.ofNat 8 ((s.chan c).state.code + flagBit (s.chan c).state.toDone 4) = b0 := by
        rw [hb0]
        cases (s.chan c).state with
        | stopping d => cases d <;> rfl
        | _ => rfl
      rw [hb1, ← hcode, ← statusFlags_eq]
      show [_, _, _, _] ++ le16 (s.chan c).curAddr.toNat ++ le16 (s.chan c).curCount.toNat = _
      rw [le16_toNat, le16_toNat]
      rfl
    rw [hdata, clearTc_eq]
    exact endRequest_of_takenThen (w := (setPhase .active s).putChan c { s.chan c with tcFlag := (s.chan c).tcFlag && !flag1 r })
      .ok (stagedCount c s) _ ht rfl

/-! ## The request lines (R62, R71, R87) -/

theorem setDreq_get (c : Chan) (level : Bool) (s : State) : (setDreq c level s).pins.dreq.get c = level := by
  simp [setDreq]

theorem requestActive_of_dreq {c : Chan} {s : State} (hd : s.pins.dreq.get c = true) (hl : s.slot.line ≠ .asserted) :
    requestActive c s = true := by
  simp [requestActive, hd, hl]

theorem requestActive_none {c : Chan} {s : State} (hd : s.pins.dreq.get c = false) (hs : (s.chan c).mode = .master ∨ (s.chan c).soft = false)
    (hb : (s.chan c).mode ≠ .block ∨ (s.chan c).blockRun = false) : requestActive c s = false := by
  unfold requestActive
  rcases hs with hs | hs <;> rcases hb with hb | hb <;> simp [hd, hs, hb]

/-- The bus given back by a master tenure, before its channel is placed. -/
def masterFreed (c : Chan) (s : State) : State :=
  rotateOrder c (freeBus ((expireHeld s).putArb { (expireHeld s).arb with masterChan := none, meter := 0 }))

theorem rotateOrder_chan (c d : Chan) (s : State) : (rotateOrder c s).chan d = s.chan d := by
  unfold rotateOrder
  split <;> rfl

theorem rotateOrder_eq (c : Chan) (s : State) : rotateOrder c s = { s with
    dma := { s.dma with order := if setRotating s.settings then rotateAfter c else s.dma.order } } := by
  unfold rotateOrder
  split <;> rfl

theorem masterFreed_within (c : Chan) (s : State) : Within { arb := true, slot := true, dma := true, master := true } s (masterFreed c s) :=
  (((expireHeld_within s).seq (putArb_within _ _) (k := { arb := true, slot := true, dma := true, master := true })).seq
    (freeBus_within _) (k := { arb := true, slot := true, dma := true, master := true })).seq (rotateOrder_within c _)

theorem masterFreed_chan (c d : Chan) (s : State) : (masterFreed c s).chan d = s.chan d :=
  (rotateOrder_chan ..).trans (congrArg (fun x => x.chans.get d) ((expireHeld_within s).dma rfl))

theorem masterFreed_owner (c : Chan) (s : State) : (masterFreed c s).arb.owner = .free :=
  congrArg Arbiter.owner ((rotateOrder_within c _).arb rfl)

theorem masterFreed_master (c : Chan) (s : State) : (masterFreed c s).master = (expireHeld s).master :=
  (rotateOrder_within c _).master rfl

theorem endMasterTenure_mastered {c : Chan} {s : State} (h : (s.chan c).state = .mastered) :
    endMasterTenure c s = placeChan true c ((masterFreed c s).putChan c { s.chan c with state := .waiting }) := by
  have hc := masterFreed_chan c c s
  unfold endMasterTenure
  dsimp only
  rw [show rotateOrder c (freeBus ((expireHeld s).putArb { (expireHeld s).arb with masterChan := none, meter := 0 })) = masterFreed c s from rfl,
    hc, h]

theorem addCause_ready (a : Nat) (f : Option MasterFault) : (addCause .ready a f).ready = true := by
  cases f <;> simp [addCause]

/-- A held cycle given up: nothing is held, the buffer stands, and a READY cause is owed. -/
theorem expireHeld_master (s : State) : (expireHeld s).master.stretched = none ∧ (expireHeld s).master.buffer = s.master.buffer ∧
    ∀ x, s.master.stretched = some x → ∃ f, (expireHeld s).master.owedFault = some f ∧ f.ready = true := by
  unfold expireHeld
  cases hx : s.master.stretched with
  | none => exact ⟨hx, rfl, fun x h => by cases h⟩
  | some x =>
    dsimp only
    cases x.kind <;> exact ⟨rfl, rfl, fun y _ => ⟨_, rfl, addCause_ready _ _⟩⟩

theorem requestRise_low {c : Chan} {s : State} (h : s.pins.dreq.get c = false) :
    requestRise c s = kickBus (placeChan true c (setDreq c true s)) := by
  rw [requestRise, h]
  rfl

theorem requestFall_high {c : Chan} {s : State} (h : s.pins.dreq.get c = true) (hm : s.arb.owner ≠ .master ∨ s.arb.masterChan ≠ some c) :
    requestFall c s = kickBus (placeChan true c (setDreq c false s)) := by
  rw [requestFall, if_pos h]
  refine if_neg ?_
  rw [Bool.and_eq_true, decide_eq_true_eq, decide_eq_true_eq]
  exact fun ⟨h1, h2⟩ => hm.elim (fun k => k h1) fun k => k h2

theorem requestFall_master {c : Chan} {s : State} (h : s.pins.dreq.get c = true) (ho : s.arb.owner = .master)
    (hm : s.arb.masterChan = some c) : requestFall c s = kickBus (endMasterTenure c (setDreq c false s)) := by
  rw [requestFall, if_pos h]
  refine if_pos ?_
  rw [Bool.and_eq_true, decide_eq_true_eq, decide_eq_true_eq]
  exact ⟨ho, hm⟩

/-- A channel placed after its line has changed, with the bus owned. -/
theorem lineMoved_within (c : Chan) (level : Bool) (s : State) :
    Within { pins := true, dma := true } s (placeChan true c (setDreq c level s)) := by
  have hset : Within { pins := true } s (setDreq c level s) := by constructor <;> intro h <;> first | rfl | cases h
  exact hset.seq (placeChan_within true c _)

theorem lineMoved_owned {c : Chan} {level : Bool} {s : State} (h : s.arb.owner ≠ .free) :
    kickBus (placeChan true c (setDreq c level s)) = placeChan true c (setDreq c level s) :=
  kickBus_owned (by rw [(lineMoved_within c level s).arb rfl]; exact h)

/-- The fall of the request line that a master tenure hangs on (R62, R87, R128). -/
theorem masterFall_ends {c : Chan} {s : State} (hd : s.pins.dreq.get c = false) (hs : (s.chan c).state = .mastered)
    (hm : (s.chan c).mode = .master) :
    let t := kickBus (endMasterTenure c s)
    (t.arb.owner = .master → t.arb.masterChan ≠ some c) ∧ (t.chan c).state = .waiting ∧ t.master.stretched = none ∧
      t.master.buffer = s.master.buffer ∧ t.staging = s.staging ∧ t.order = s.order ∧
      ∀ x, s.master.stretched = some x → ∃ f, t.master.owedFault = some f ∧ f.ready = true := by
  have hput : ((masterFreed c s).putChan c { s.chan c with state := .waiting }).chan c = { s.chan c with state := .waiting } :=
    (State.putChan_chan ..).trans (if_pos rfl)
  have hw : Within { arb := true, slot := true, dma := true, master := true } s (endMasterTenure c s) := by
    rw [endMasterTenure_mastered hs]
    exact ((masterFreed_within c s).seq (putChan_within _ _ _) (k := { arb := true, slot := true, dma := true, master := true })).seq
      (placeChan_within true c _)
  have hstate : ((endMasterTenure c s).chan c).state = .waiting := by
    rw [endMasterTenure_mastered hs, placeChan_state (by rw [hput]; rfl), placedState, requestActive_none]
    · rfl
    · exact (congrArg (fun p : Pins => p.dreq.get c) ((masterFreed_within c s).pins rfl)).trans hd
    · rw [hput]; exact .inl hm
    · rw [hput]; exact .inl (by rw [hm]; decide)
  have hmaster : (endMasterTenure c s).master = (expireHeld s).master := by
    rw [endMasterTenure_mastered hs, (placeChan_within true c _).master rfl]
    exact masterFreed_master c s
  have howner : (endMasterTenure c s).arb.owner = .free := by
    rw [endMasterTenure_mastered hs, (placeChan_within true c _).arb rfl]
    exact masterFreed_owner c s
  have hkick := kickBus_master (endMasterTenure c s)
  obtain ⟨hnone, hbuffer, hready⟩ := expireHeld_master s
  intro t
  refine ⟨fun ho hc => ?_, ?_, ?_, ?_, ?_, ?_, fun x hx => ?_⟩
  · obtain ⟨d, hd, hmc⟩ := kickBus_masterChan (by rw [howner]; decide) ho
    rw [hmc, Option.some.injEq] at hc
    rw [hc, hstate] at hd
    cases hd
  · rw [kickBus_chan (by rw [hstate]; decide), hstate]
  · rw [hkick, hmaster]; exact hnone
  · rw [hkick, hmaster]; exact hbuffer
  · exact ((kickBus_within _).staging rfl).trans (hw.staging rfl)
  · exact ((kickBus_within _).order rfl).trans (hw.order rfl)
  · rw [hkick, hmaster]; exact hready x hx

/-- Settles O31: a line that moves places its channel, or ends the master tenure that hangs on it. -/
theorem requestLinesPlaceChannels : Obligations.RequestLinesPlaceChannels := by
  refine ⟨fun s c => ⟨fun h => congrArg Host.Outcome.next (if_pos h), fun h => congrArg Host.Outcome.next (if_neg (by rw [h]; decide)),
    fun h ho => ?rise, fun h ho hm => ?fall⟩, fun s c h ho hm hs hmode => ?master⟩
  case rise =>
    refine ⟨_, congrArg Host.Outcome.next ((requestRise_low h).trans (lineMoved_owned ho)), lineMoved_within c true s,
      (placeChan_within true c _).pins rfl, fun d hd => placeChan_other hd _, fun hp => ?_, fun hp hl => ?_⟩
    · rw [placeChan_of_not_placeable (by exact hp)]
      rfl
    · rw [placeChan_state (by exact hp), placedState, if_pos (requestActive_of_dreq (setDreq_get ..) (by exact hl))]
      rfl
  case fall =>
    refine ⟨_, congrArg Host.Outcome.next ((requestFall_high h hm).trans (lineMoved_owned ho)), lineMoved_within c false s,
      (placeChan_within true c _).pins rfl, fun d hd => placeChan_other hd _, fun hp hsoft hrun => ?_⟩
    rw [placeChan_state (by exact hp), placedState, requestActive_none (setDreq_get ..) (.inr hsoft) (.inr hrun)]
    rfl
  case master =>
    obtain ⟨hmc, hstate, hnone, hbuffer, hstaging, horder, hready⟩ := masterFall_ends (c := c) (s := setDreq c false s) (setDreq_get ..) hs hmode
    refine ⟨_, congrArg Host.Outcome.next (requestFall_master h ho hm), ?_, hmc, hstate, hnone, hbuffer, hstaging, horder, hready⟩
    refine ((kickBus_within _).pins rfl).trans ?_
    rw [endMasterTenure_mastered (by exact hs), (placeChan_within true c _).pins rfl]
    exact (masterFreed_within c _).pins rfl

end Sys2Proof.Machine
end

section
/-! PROOF. CHANNEL MASK (R76 to R79): what one channel's turn leaves of the others, and what masking and unmasking make of each. -/

namespace Sys2Proof.Machine

set_option Elab.async false

/-! ## Events on one channel's own record, staging and runs -/

/-- `t` is `s` but for the record, the staging buffer and the runs of the channel. -/
structure OnlyChan (c : Chan) (s t : State) : Prop where
  within : Within { dma := true, staging := true, order := true } s t
  order : t.dma.order = s.dma.order
  chan : ∀ d, d ≠ c → t.chan d = s.chan d
  stage : ∀ d, d ≠ c → t.stage d = s.stage d
  decided : ∀ d, d ≠ c → decidedBytes d t.order = decidedBytes d s.order

theorem OnlyChan.refl (c : Chan) (s : State) : OnlyChan c s s := ⟨.refl _ s, rfl, fun _ _ => rfl, fun _ _ => rfl, fun _ _ => rfl⟩

theorem OnlyChan.trans {c : Chan} {s t u : State} (h : OnlyChan c s t) (k : OnlyChan c t u) : OnlyChan c s u where
  within := h.within.trans k.within
  order := k.order.trans h.order
  chan d hd := (k.chan d hd).trans (h.chan d hd)
  stage d hd := (k.stage d hd).trans (h.stage d hd)
  decided d hd := (k.decided d hd).trans (h.decided d hd)

theorem OnlyChan.queue {c : Chan} {s t : State} (h : OnlyChan c s t) : t.queue = s.queue := h.within.queue rfl

theorem OnlyChan.arb {c : Chan} {s t : State} (h : OnlyChan c s t) : t.arb = s.arb := h.within.arb rfl

theorem workOf_of_queue {s t : State} (h : t.queue = s.queue) : workOf t = workOf s := by rw [workOf, workOf, h]

theorem OnlyChan.workOf {c : Chan} {s t : State} (h : OnlyChan c s t) : workOf t = workOf s := workOf_of_queue h.queue

theorem OnlyChan.putChan (c : Chan) (v : Channel) (s : State) : OnlyChan c s (s.putChan c v) where
  within := (putChan_within c v s).mono (by decide)
  order := rfl
  chan d hd := (State.putChan_chan ..).trans (if_neg hd)
  stage _ _ := rfl
  decided _ _ := rfl

theorem OnlyChan.putStage (c : Chan) (v : Staging) (s : State) : OnlyChan c s (s.putStage c v) where
  within := (putStage_within c v s).mono (by decide)
  order := rfl
  chan _ _ := rfl
  stage d hd := (State.putStage_stage ..).trans (if_neg hd)
  decided _ _ := rfl

theorem decidedBytes_append (c : Chan) (o o' : List OrderItem) : decidedBytes c (o ++ o') = decidedBytes c o + decidedBytes c o' := by
  induction o with
  | nil => simp [decidedBytes]
  | cons i o ih =>
    cases i with
    | read src => simpa [decidedBytes] using ih
    | write src h bs =>
      cases src <;> simp only [List.cons_append, decidedBytes, ih]
      omega

theorem decidedBytes_run (c d : Chan) (h : Nat) (bs : List Byte) :
    decidedBytes d [.write (.run c) h bs] = if c = d then bs.length else 0 := by
  simp [decidedBytes]

theorem OnlyChan.closeRun (c : Chan) (s : State) : OnlyChan c s (closeRun c s) := by
  cases h : (s.stage c).opened with
  | none => rw [closeRun_none h]; exact .refl c s
  | some r =>
    refine ⟨(closeRun_within c s).mono (by decide), by rw [closeRun_of_opened h], fun d _ => ?_, fun d hd => ?_, fun d hd => ?_⟩
    · rw [closeRun_of_opened h]; rfl
    · rw [closeRun_stage, if_neg hd]
    · rw [closeRun_of_opened h, decidedBytes_append, decidedBytes_run, if_neg hd.symm, Nat.add_zero]

theorem OnlyChan.ite {c : Chan} {s t u : State} {p : Prop} [Decidable p] (h : OnlyChan c s t) (k : OnlyChan c s u) :
    OnlyChan c s (if p then t else u) := by split <;> assumption

theorem OnlyChan.flushDemand (c : Chan) (s : State) : OnlyChan c s (flushDemand c s) :=
  .ite (.ite (.closeRun c s) ((OnlyChan.closeRun c s).trans (.putStage c _ _))) (.refl c s)

theorem OnlyChan.recordFault (f : ChanFault) (a : Nat) (c : Chan) (s : State) : OnlyChan c s (recordFault f a c s) := .putChan c _ s

theorem OnlyChan.placeChan (b : Bool) (c : Chan) (s : State) : OnlyChan c s (placeChan b c s) := by
  cases hp : (s.chan c).state.placeable
  · rw [placeChan_of_not_placeable hp]; exact .refl c s
  · obtain ⟨v, hv, -⟩ := placeChan_cases b hp
    rw [hv]; exact .putChan c v s

theorem OnlyChan.causing {c : Chan} {event : State → State} {s : State} (h : OnlyChan c s (event s)) :
    OnlyChan c s (Sys2Proof.Machine.causing event s) where
  within := causing_within h.within
  order := h.order
  chan d hd := (causing_chan_of_eq (by rw [h.chan d hd])).trans (h.chan d hd)
  stage := h.stage
  decided := h.decided

theorem OnlyChan.unmask (c : Chan) (ch : Channel) (s : State) : OnlyChan c s (unmask c ch s) :=
  ((OnlyChan.putChan c _ s).trans (.ite (.putStage c _ _) (.refl c _))).trans (.placeChan true c _)

theorem OnlyChan.clearMask (c : Chan) (s : State) : OnlyChan c s (clearMask c s) := by
  unfold Sys2Proof.Machine.clearMask
  dsimp only
  split
  · exact .causing (.unmask c _ s)
  · exact .causing (.unmask c _ s)
  all_goals exact .refl c s

/-! ## Stopping with no CHANNEL MASK in flight (R77) -/

theorem maskCheck_of_nothing {s : State} (h : workOf s = .nothing) : maskCheck s = s := by simp only [maskCheck, h]

theorem waitingClear_of_nothing {c : Chan} {s : State} (h : workOf s = .nothing) : waitingClear c s = s := by
  simp only [waitingClear, h]

/-- The state in which a stopping ends. -/
def Dest.state : Dest → ChanState
  | .idle => .idle
  | .finished => .finished

/-- A channel that stops with nothing in flight for a mask: it still has something to finish, or it enters its destination. -/
theorem endStopping_of_nothing {c : Chan} {d : Dest} {s : State} (hs : (s.chan c).state = .stopping d) (h : workOf s = .nothing) :
    endStopping c s = if stillStopping c s then s else s.putChan c { s.chan c with state := d.state } := by
  have hput (v : Channel) : maskCheck (waitingClear c (s.putChan c v)) = s.putChan c v := by
    have hw : workOf (s.putChan c v) = .nothing := h
    rw [waitingClear_of_nothing hw, maskCheck_of_nothing hw]
  rw [endStopping, hs]
  dsimp only
  rw [hput]
  cases d <;> rfl

theorem endStopping_only {c : Chan} {s : State} (h : workOf s = .nothing) : OnlyChan c s (endStopping c s) := by
  cases hs : (s.chan c).state with
  | stopping d =>
    rw [endStopping_of_nothing hs h]
    exact .ite (.refl c s) (.putChan c _ s)
  | _ =>
    rw [endStopping, hs]
    exact .refl c s

/-- The flush or the discard with which a channel that does not own the bus begins to stop (R77). -/
def stopEntered (c : Chan) (d : Dest) (s : State) : State :=
  if (s.chan c).mode = .master then s.putChan c { s.chan c with mask := true, state := .stopping d }
  else
    match (s.chan c).dir with
    | .toMemory => flushDemand c (s.putChan c { s.chan c with mask := true, state := .stopping d })
    | .fromMemory => discardPrefetch c (s.putChan c { s.chan c with mask := true, state := .stopping d })
    | .verify => s.putChan c { s.chan c with mask := true, state := .stopping d }

theorem enterStopping_entered (c : Chan) (d : Dest) (s : State) : enterStopping c d s = endStopping c (stopEntered c d s) := rfl

theorem stopEntered_only (c : Chan) (d : Dest) (s : State) : OnlyChan c s (stopEntered c d s) := by
  unfold stopEntered
  split
  · exact .putChan c _ s
  · cases (s.chan c).dir
    · exact (OnlyChan.putChan c _ s).trans (.flushDemand c _)
    · exact (OnlyChan.putChan c _ s).trans (.putStage c _ _)
    · exact .putChan c _ s

theorem stopEntered_chan (c : Chan) (d : Dest) (s : State) :
    (stopEntered c d s).chan c = { s.chan c with mask := true, state := .stopping d } := by
  have hput : (s.putChan c { s.chan c with mask := true, state := .stopping d }).chan c =
      { s.chan c with mask := true, state := .stopping d } := (State.putChan_chan ..).trans (if_pos rfl)
  unfold stopEntered
  split
  · exact hput
  · cases (s.chan c).dir
    · exact (congrArg (fun x => x.chans.get c) ((flushDemand_within c _).dma rfl)).trans hput
    · exact hput
    · exact hput

theorem enterStopping_only {c : Chan} {d : Dest} {s : State} (h : workOf s = .nothing) : OnlyChan c s (enterStopping c d s) := by
  rw [enterStopping_entered]
  have hs := stopEntered_only c d s
  exact hs.trans (endStopping_only (hs.workOf.trans h))

theorem maskChan_only {c : Chan} {s : State} (h : workOf s = .nothing) : OnlyChan c s (maskChan c s) := by
  have henter : OnlyChan c s (enterStopping c .idle (s.putChan c (s.chan c).masked)) :=
    (OnlyChan.putChan c _ s).trans (enterStopping_only h)
  unfold maskChan
  dsimp only
  split
  all_goals first
    | exact .refl c s
    | exact henter
    | exact .putChan c _ s

/-- A flush moves bytes from the open run to the order and stages none (R104, R108). -/
theorem flushDemand_stagedCount (c : Chan) (s : State) : stagedCount c (flushDemand c s) = stagedCount c s := by
  have hclose : stagedCount c (closeRun c s) = stagedCount c s := by
    cases h : (s.stage c).opened with
    | none => rw [closeRun_none h]
    | some r =>
      rw [stagedCount, closeRun_stage, if_pos rfl, closeRun_of_opened h]
      simp only [stagedCount, openBytes, h, decidedBytes_append, decidedBytes_run, if_true]
      omega
  unfold flushDemand
  dsimp only
  split
  · split
    · exact hclose
    · rw [← hclose]
      simp [stagedCount, openBytes]
  · rfl

theorem flushDemand_marks {c : Chan} {s : State} (h : stagesToMemory (s.chan c) = true) :
    ((flushDemand c s).stage c).marks = (s.stage c).marks ++ (if stagedCount c s = 0 then [] else [stagedCount c s]) := by
  rw [flushDemand, if_pos h]
  dsimp only
  split
  · rw [closeRun_stage, if_pos rfl, List.append_nil]
  · rw [State.putStage_stage, if_pos rfl, closeRun_stage, if_pos rfl]

theorem stagedCount_putChan (c d : Chan) (v : Channel) (s : State) : stagedCount d (s.putChan c v) = stagedCount d s := rfl

/-! ## Every channel in turn -/

/-- What an event on another channel leaves of this one. -/
structure Same (c : Chan) (s t : State) : Prop where
  within : Within { dma := true, staging := true, order := true } s t
  chan : t.chan c = s.chan c
  stage : t.stage c = s.stage c
  decided : decidedBytes c t.order = decidedBytes c s.order

theorem Same.refl (c : Chan) (s : State) : Same c s s := ⟨.refl _ s, rfl, rfl, rfl⟩

theorem Same.trans {c : Chan} {s t u : State} (h : Same c s t) (k : Same c t u) : Same c s u :=
  ⟨h.within.trans k.within, k.chan.trans h.chan, k.stage.trans h.stage, k.decided.trans h.decided⟩

theorem OnlyChan.same {c d : Chan} {s t : State} (h : OnlyChan d s t) (hc : c ≠ d) : Same c s t :=
  ⟨h.within, h.chan c hc, h.stage c hc, h.decided c hc⟩

theorem Same.stagedCount {c : Chan} {s t : State} (h : Same c s t) : stagedCount c t = stagedCount c s := by
  rw [Sys2Proof.Machine.stagedCount, h.stage, h.decided]
  rfl

theorem Same.canServe {c : Chan} {s t : State} (h : Same c s t) : canServe c t = canServe c s := by
  rw [Sys2Proof.Machine.canServe, Sys2Proof.Machine.canServe, h.chan, h.stage, h.stagedCount]

theorem foldl_same {f : Chan → State → State} {q : Work} (h : ∀ c x, workOf x = q → OnlyChan c x (f c x)) (c : Chan) :
    ∀ (l : List Chan) (s : State), c ∉ l → workOf s = q → Same c s (l.foldl (fun x d => f d x) s)
  | [], s, _, _ => .refl c s
  | d :: l, s, hc, hs => by
    have hd := h d s hs
    rw [List.mem_cons, not_or] at hc
    exact (hd.same hc.1).trans (foldl_same h c l _ hc.2 (hd.workOf.trans hs))

theorem forChans_eq_foldl (f : Chan → State → State) (s : State) : forChans f s = Chan.all.foldl (fun x d => f d x) s := rfl

/-- Where each channel's turn acts on that channel only, each channel is what its own turn makes of it. -/
theorem forChans_own {f : Chan → State → State} {q : Work} (h : ∀ c x, workOf x = q → OnlyChan c x (f c x)) {s : State}
    (hs : workOf s = q) (c : Chan) : ∃ x, workOf x = q ∧ Same c s x ∧ Same c (f c x) (forChans f s) := by
  obtain ⟨pre, post, hl⟩ := List.append_of_mem (mem_Chan_all c)
  have hnd : Chan.all.Nodup := by decide
  rw [hl, List.nodup_middle, List.nodup_cons, List.mem_append, not_or] at hnd
  have hpre := foldl_same h c pre s hnd.1.1 hs
  have hq := (workOf_of_queue (hpre.within.queue rfl)).trans hs
  refine ⟨_, hq, hpre, ?_⟩
  rw [forChans_eq_foldl, hl, List.foldl_append, List.foldl_cons]
  exact foldl_same h c post _ hnd.1.2 ((h c _ hq).workOf.trans hq)

theorem forChans_only_within {f : Chan → State → State} {q : Work} (h : ∀ c x, workOf x = q → OnlyChan c x (f c x)) {s : State}
    (hs : workOf s = q) : Within { dma := true, staging := true, order := true } s (forChans f s) ∧
      (forChans f s).dma.order = s.dma.order := by
  have hall (l : List Chan) (s : State) (hs : workOf s = q) :
      Within { dma := true, staging := true, order := true } s (l.foldl (fun x d => f d x) s) ∧
        (l.foldl (fun x d => f d x) s).dma.order = s.dma.order := by
    induction l generalizing s with
    | nil => exact ⟨.refl _ s, rfl⟩
    | cons d l ih =>
      have hd := h d s hs
      obtain ⟨hw, ho⟩ := ih (f d s) (hd.workOf.trans hs)
      exact ⟨hd.within.trans hw, ho.trans hd.order⟩
  exact hall Chan.all s hs

/-! ## The end of a request that waited (R36, R79) -/

/-- The outcome does not look at what the request in flight was doing before it. -/
theorem EndsWith.of_exec {hf : Bool} {r : Record} {st : Status} {n : Nat} {d : List Byte} {e : Option Exec} {s t : State}
    (h : EndsWith hf r st n d { s with queue := { s.queue with exec := e } } t) : EndsWith hf r st n d s t := by
  refine ⟨?_, h.responds, fun k => ?_⟩
  · exact Within.seq (putQueue_within _ s) h.frame
  · have hr := h.retires k
    exact ⟨hr.records, hr.state, hr.exec, hr.controls, hr.waitHalt, hr.waitAbort, hr.place, hr.finished, hr.number, hr.tied, hr.stream⟩

/-- A request that ends in a state with the queue of `s` but for what the request in flight was doing. -/
theorem endRequest_of_exec {s w : State} {e : Exec} (st : Status) (n : Nat) (d : List Byte)
    (hq : w.queue = { s.queue with exec := some e }) : Ends e.request st n d { w with queue := s.queue } (endRequest st n d w) := by
  have h := endRequest_ends st n d w e (by rw [hq])
  have hw : { w with queue := { s.queue with exec := some e } } = w := by rw [← hq]
  refine EndsWith.of_exec (s := { w with queue := s.queue }) (e := some e) ?_
  show EndsWith false e.request st n d { w with queue := { s.queue with exec := some e } } _
  rw [hw]
  exact h

theorem setWork_of {w : Work} {s : State} {x : Exec} (hx : s.queue.exec = some x) :
    setWork w s = { s with queue := { s.queue with exec := some { x with work := w } } } := by
  simp only [setWork, hx]
  rfl

theorem JustTaken.taken {s : State} {x : Exec} (h : JustTaken s x) : takenRecord s = some x.request := takenRecord_of h.1 h.2.1

theorem JustTaken.workOf {s : State} {x : Exec} (h : JustTaken s x) (p : ReqPhase) : workOf (setPhase p s) = .nothing := by
  rw [setPhase_of h.1]
  exact h.2.2

/-! ## CHANNEL MASK set (R76, R77, R79) -/

theorem chanMarks_get (r : Record) (c : Chan) : (chanMarks r.addr 0).get c = named r c := by cases c <;> rfl

theorem chanMarksGood_iff (r : Record) : chanMarksGood r.addr = true ↔ ¬ namesNoChannel r := by
  rw [chanMarksGood, Bool.and_eq_true, decide_eq_true_eq, field_top r.addr (by decide), Bool.not_eq_true']
  unfold namesNoChannel
  rw [not_or, Bool.not_eq_true]
  exact and_congr Iff.rfl (by omega)

theorem maskChan_masked {c : Chan} {s : State} (h : (s.chan c).state.masked = true) : maskChan c s = s := by
  cases hs : (s.chan c).state <;> rw [hs] at h
  all_goals first
    | (cases h; done)
    | simp only [maskChan, hs]

theorem maskChan_owner {c : Chan} {s : State} (h : (s.chan c).state = .active ∨ (s.chan c).state = .mastered) :
    maskChan c s = s.putChan c { s.chan c with mask := true, soft := false, blockRun := false, state := .stopping .idle } := by
  rcases h with h | h <;> simp only [maskChan, h] <;> rfl

theorem maskChan_placeable {c : Chan} {s : State} (h : (s.chan c).state.placeable = true) :
    maskChan c s = enterStopping c .idle (s.putChan c (s.chan c).masked) := by
  cases hs : (s.chan c).state <;> rw [hs] at h
  all_goals first
    | (cases h; done)
    | simp only [maskChan, hs]

/-- The state in which a channel that waits begins to stop, its mask taken (R76, R77). -/
def maskEntered (c : Chan) (s : State) : State := stopEntered c .idle (s.putChan c (s.chan c).masked)

theorem maskEntered_only (c : Chan) (s : State) : OnlyChan c s (maskEntered c s) :=
  (OnlyChan.putChan c _ s).trans (stopEntered_only c .idle _)

theorem maskEntered_chan (c : Chan) (s : State) : (maskEntered c s).chan c =
    { s.chan c with mask := true, soft := false, blockRun := false, state := .stopping .idle } := by
  rw [maskEntered, stopEntered_chan, State.putChan_chan, if_pos rfl]
  rfl

theorem maskEntered_eq (c : Chan) (s : State) : maskEntered c s =
    stopEntered c .idle (s.putChan c (s.chan c).masked) := rfl

/-- Where staging holds card-to-memory bytes a flush begins the stopping. -/
theorem maskEntered_flushes {c : Chan} {s : State} (h : stagesToMemory (s.chan c) = true) : maskEntered c s =
    flushDemand c (s.putChan c { s.chan c with mask := true, soft := false, blockRun := false, state := .stopping .idle }) := by
  rw [stagesToMemory, Bool.and_eq_true, decide_eq_true_eq, decide_eq_true_eq] at h
  rw [maskEntered, stopEntered, State.putChan_chan, if_pos rfl, if_neg (by exact h.2)]
  have hdir : (s.chan c).masked.dir = .toMemory := h.1
  rw [hdir, putChan_putChan]
  rfl

theorem maskEntered_discards {c : Chan} {s : State} (hm : (s.chan c).mode ≠ .master) (hd : (s.chan c).dir = .fromMemory) :
    ((maskEntered c s).stage c).chunks = [] := by
  rw [maskEntered, stopEntered, State.putChan_chan, if_pos rfl, if_neg (by exact hm)]
  have hdir : (s.chan c).masked.dir = .fromMemory := hd
  rw [hdir]
  simp [discardPrefetch]

theorem maskEntered_stagedCount {c : Chan} {s : State} (h : stagesToMemory (s.chan c) = true) :
    stagedCount c (maskEntered c s) = stagedCount c s := by
  rw [maskEntered_flushes h, flushDemand_stagedCount, stagedCount_putChan]

/-- A channel that waits and is masked: STOPPING while staged card-to-memory bytes are left, and IDLE else. -/
theorem maskChan_stops {c : Chan} {s : State} (hw : workOf s = .nothing) (hp : (s.chan c).state.placeable = true)
    (ho : s.arb.owner ≠ .dma c) (hm : s.arb.masterChan ≠ some c) :
    (maskChan c s).chan c = { s.chan c with
      mask := true, soft := false, blockRun := false
      state := if stagesToMemory (s.chan c) = true ∧ stagedCount c s ≠ 0 then .stopping .idle else .idle } ∧
    (maskChan c s).stage c = (maskEntered c s).stage c := by
  have hent := maskEntered_chan c s
  have honly := maskEntered_only c s
  have hstill : stillStopping c (maskEntered c s) = true ↔ stagesToMemory (s.chan c) = true ∧ stagedCount c s ≠ 0 := by
    have hst : stagesToMemory ((maskEntered c s).chan c) = stagesToMemory (s.chan c) := by
      rw [hent]
      rfl
    rw [stillStopping, hst, honly.arb]
    cases hsm : stagesToMemory (s.chan c)
    · simp [ho, hm]
    · simp [ho, hm, maskEntered_stagedCount hsm]
  rw [maskChan_placeable hp, enterStopping_entered, ← maskEntered_eq,
    endStopping_of_nothing (d := .idle) (by rw [hent]) (honly.workOf.trans hw)]
  by_cases h : stagesToMemory (s.chan c) = true ∧ stagedCount c s ≠ 0
  · rw [if_pos (hstill.2 h), if_pos h]
    exact ⟨hent, rfl⟩
  · rw [if_neg fun k => h (hstill.1 k), if_neg h, State.putChan_chan, if_pos rfl, hent]
    exact ⟨rfl, rfl⟩

/-- Every channel named is masked. -/
def maskNamed (r : Record) (s : State) : State := forChans (fun c x => if (chanMarks r.addr 0).get c then maskChan c x else x) s

theorem channelMaskSet_good {r : Record} {s : State} (h : ¬ namesNoChannel r) :
    channelMaskSet r s = maskCheck (setWork (.maskSet (chanMarks r.addr 0)) (maskNamed r s)) := by
  rw [channelMaskSet, (chanMarksGood_iff r).2 h]
  rfl

theorem maskTurn_only (r : Record) (c : Chan) (s : State) (h : workOf s = .nothing) :
    OnlyChan c s (if (chanMarks r.addr 0).get c then maskChan c s else s) := .ite (maskChan_only h) (.refl c s)

theorem maskNamed_not {r : Record} {s : State} {c : Chan} (hs : workOf s = .nothing) (h : named r c = false) : Same c s (maskNamed r s) := by
  obtain ⟨x, -, hx, hy⟩ := forChans_own (maskTurn_only r) hs c
  rw [chanMarks_get, h, if_neg (by decide)] at hy
  exact hx.trans hy

/-- A channel named is what its masking makes of it. -/
theorem maskNamed_own {r : Record} {s : State} {c : Chan} (hs : workOf s = .nothing) (h : named r c = true) :
    ∃ x, workOf x = .nothing ∧ Same c s x ∧ Same c (maskChan c x) (maskNamed r s) := by
  obtain ⟨x, hw, hx, hy⟩ := forChans_own (maskTurn_only r) hs c
  rw [chanMarks_get, h, if_pos rfl] at hy
  exact ⟨x, hw, hx, hy⟩

theorem maskNamed_within (r : Record) {s : State} (hs : workOf s = .nothing) :
    Within { dma := true, staging := true, order := true } s (maskNamed r s) := (forChans_only_within (maskTurn_only r) hs).1

/-- What masking makes of a channel named that waits (R76, R77, R108). -/
theorem maskNamed_stops {r : Record} {s : State} {c : Chan} (hs : workOf s = .nothing) (h : named r c = true)
    (hp : (s.chan c).state.placeable = true) (ho : s.arb.owner ≠ .dma c) (hm : s.arb.masterChan ≠ some c) :
    (stagesToMemory (s.chan c) = true → stagedCount c s = 0 →
      (maskNamed r s).chan c = { s.chan c with mask := true, soft := false, blockRun := false, state := .idle } ∧
      ((maskNamed r s).stage c).opened = none ∧ ((maskNamed r s).stage c).marks = (s.stage c).marks) ∧
    (stagesToMemory (s.chan c) = true → stagedCount c s ≠ 0 →
      (maskNamed r s).chan c = { s.chan c with mask := true, soft := false, blockRun := false, state := .stopping .idle } ∧
      ((maskNamed r s).stage c).opened = none ∧ ((maskNamed r s).stage c).marks = (s.stage c).marks ++ [stagedCount c s]) ∧
    (stagesToMemory (s.chan c) = false →
      (maskNamed r s).chan c = { s.chan c with mask := true, soft := false, blockRun := false, state := .idle } ∧
      ((s.chan c).dir = .fromMemory → (s.chan c).mode ≠ .master → ((maskNamed r s).stage c).chunks = [])) := by
  obtain ⟨x, hwx, hx, hy⟩ := maskNamed_own hs h
  have harb : x.arb = s.arb := hx.within.arb rfl
  obtain ⟨hchan, hstage⟩ := maskChan_stops (s := x) (c := c) hwx (by rw [hx.chan]; exact hp) (by rw [harb]; exact ho) (by rw [harb]; exact hm)
  rw [hx.chan, hx.stagedCount] at hchan
  have hopened (hsm : stagesToMemory (s.chan c) = true) : ((maskNamed r s).stage c).opened = none ∧
      ((maskNamed r s).stage c).marks = (s.stage c).marks ++ (if stagedCount c s = 0 then [] else [stagedCount c s]) := by
    have hsx : stagesToMemory (x.chan c) = true := by rw [hx.chan]; exact hsm
    have hput : stagesToMemory ((x.putChan c { x.chan c with
        mask := true, soft := false, blockRun := false, state := .stopping .idle }).chan c) = true := by
      rw [State.putChan_chan, if_pos rfl]
      exact hsx
    rw [hy.stage, hstage, maskEntered_flushes hsx, flushDemand_opened_same hput, flushDemand_marks hput, stagedCount_putChan, hx.stagedCount]
    exact ⟨rfl, by rw [← hx.stage]; rfl⟩
  rw [← hy.chan] at hchan
  refine ⟨fun hsm h0 => ?_, fun hsm h0 => ?_, fun hsm => ⟨?_, fun hd hm' => ?_⟩⟩
  · obtain ⟨h1, h2⟩ := hopened hsm
    rw [if_neg fun k => k.2 h0] at hchan
    rw [if_pos h0, List.append_nil] at h2
    exact ⟨hchan, h1, h2⟩
  · obtain ⟨h1, h2⟩ := hopened hsm
    rw [if_pos ⟨hsm, h0⟩] at hchan
    rw [if_neg h0] at h2
    exact ⟨hchan, h1, h2⟩
  · rw [if_neg fun k => by rw [hsm] at k; cases k.1] at hchan
    exact hchan
  · rw [hy.stage, hstage]
    exact maskEntered_discards (by rw [hx.chan]; exact hm') (by rw [hx.chan]; exact hd)

/-- A CHANNEL MASK set ends when every channel it names is at rest, and stays in flight else (R79). -/
theorem maskCheck_set {s : State} {m : PerChan Bool} (h : workOf s = .maskSet m) :
    ((∀ c, m.get c = true → (s.chan c).state = .idle ∨ (s.chan c).state = .finished) → maskCheck s = answerPlain .ok s) ∧
    ((∃ c, m.get c = true ∧ (s.chan c).state ≠ .idle ∧ (s.chan c).state ≠ .finished) → maskCheck s = s) := by
  simp only [maskCheck, h]
  refine ⟨fun hall => if_pos ?_, fun ⟨c, hm, hi, hf⟩ => if_neg ?_⟩
  · rw [List.all_eq_true]
    intro c _
    cases hm : m.get c
    · rfl
    · simpa [atRest_iff] using hall c hm
  · rw [List.all_eq_true]
    intro hall
    have hc := hall c (mem_Chan_all c)
    rw [hm] at hc
    exact ((atRest_iff _).1 (by simpa using hc)).elim hi hf

/-- Settles O28: each channel named is masked by its state, and the request waits for them all. -/
theorem channelMaskSetStopsChannels : Obligations.ChannelMaskSetStopsChannels := by
  intro s x hj hk hf
  have hexec {u : State} (h : channelMaskSet x.request (setPhase .active s) = u) : exec .channelMaskSet s = .next u :=
    congrArg Host.Outcome.next ((whenTaken_taken channelMaskSet hj.taken (by simp [hk, hf])).trans h)
  refine ⟨fun hn => ⟨_, hexec ?_, endRequest_of_taken .badRequest 0 zeros8 hj.taken⟩, fun hn => ?_⟩
  · have hbad : chanMarksGood x.request.addr = false := by
      rw [← Bool.not_eq_true, chanMarksGood_iff]
      exact fun k => k hn
    rw [channelMaskSet, hbad]
    rfl
  have hwork := hj.workOf .active
  have hw := maskNamed_within x.request hwork
  have hqueue : (maskNamed x.request (setPhase .active s)).queue = { s.queue with exec := some { x with phase := .active } } := by
    rw [hw.queue rfl, setPhase_of hj.1]
  have hset := setWork_of (w := .maskSet (chanMarks x.request.addr 0)) (x := { x with phase := .active }) (by rw [hqueue])
  have hcheck := maskCheck_set (s := setWork (.maskSet (chanMarks x.request.addr 0)) (maskNamed x.request (setPhase .active s)))
    (m := chanMarks x.request.addr 0) (by rw [hset]; rfl)
  simp only [chanMarks_get] at hcheck
  refine ⟨_, _, hexec (channelMaskSet_good hn), hw.withQueue, fun c hc => ?_, fun c hc => ⟨fun hm => ?_, fun hm => ?_, fun hp ho hm => ?_⟩,
    fun hall => ?_, fun hsome => ?_⟩
  · have hsame := maskNamed_not hwork hc
    exact ⟨hsame.chan, hsame.stage⟩
  · obtain ⟨y, -, hy, hz⟩ := maskNamed_own hwork hc
    rw [maskChan_masked (by rw [hy.chan]; exact hm)] at hz
    exact ⟨hz.chan.trans hy.chan, hz.stage.trans hy.stage⟩
  · obtain ⟨y, -, hy, hz⟩ := maskNamed_own hwork hc
    rw [maskChan_owner (by rw [hy.chan]; exact hm), hy.chan] at hz
    exact ⟨hz.chan.trans ((State.putChan_chan ..).trans (if_pos rfl)), hz.stage.trans hy.stage⟩
  · exact maskNamed_stops hwork hc hp ho hm
  · rw [hcheck.1 (by rw [hset]; exact hall), hset, hqueue]
    exact endRequest_of_exec (s := s) (e := { x with phase := .active, work := .maskSet (chanMarks x.request.addr 0) })
      (w := { maskNamed x.request (setPhase .active s) with queue := { s.queue with
        exec := some { x with phase := .active, work := .maskSet (chanMarks x.request.addr 0) } } }) .ok 0 zeros8 rfl
  · rw [hcheck.2 (by rw [hset]; exact hsome), hset]
    exact ⟨chanMarks x.request.addr 0, by rw [hqueue], chanMarks_get x.request⟩

/-! ## CHANNEL MASK clear (R78, R79, R111) -/

/-- Staging is asked about the next unit alone. -/
theorem canServe_congr {c : Chan} {s t : State} (hm : (t.chan c).mode = (s.chan c).mode) (hd : (t.chan c).dir = (s.chan c).dir)
    (hp : (t.chan c).page = (s.chan c).page) (ha : (t.chan c).curAddr = (s.chan c).curAddr) (hst : t.stage c = s.stage c)
    (hn : stagedCount c t = stagedCount c s) : canServe c t = canServe c s := by
  simp only [canServe, unitAddr, hm, hd, hp, ha, hst, hn]

theorem requestActive_congr {c : Chan} {s t : State} (hm : (t.chan c).mode = (s.chan c).mode) (hs : (t.chan c).soft = (s.chan c).soft)
    (hb : (t.chan c).blockRun = (s.chan c).blockRun) (hp : t.pins = s.pins) (hl : t.slot = s.slot) :
    requestActive c t = requestActive c s := by
  simp only [requestActive, hm, hs, hb, hp, hl]

/-- The state in which a channel that is unmasked is placed (R78, R111). -/
def unmasking (c : Chan) (ch : Channel) (s : State) : State :=
  if ch.dir = .fromMemory then startCursor c (s.putChan c { ch with mask := false, state := .waiting })
  else s.putChan c { ch with mask := false, state := .waiting }

theorem unmask_eq (c : Chan) (ch : Channel) (s : State) : unmask c ch s = placeChan true c (unmasking c ch s) := rfl

theorem unmasking_chan (c : Chan) (ch : Channel) (s : State) : (unmasking c ch s).chan c = { ch with mask := false, state := .waiting } := by
  unfold unmasking
  split <;> exact (State.putChan_chan ..).trans (if_pos rfl)

theorem unmasking_stage {c : Chan} {ch : Channel} {s : State} (h : ch.dir = .fromMemory) : ((unmasking c ch s).stage c).chunks = [] ∧
    ((unmasking c ch s).stage c).cursor = ⟨ch.page, ch.curAddr, ch.curCount, .reading, .no⟩ := by
  rw [unmasking, if_pos h, startCursor, State.putStage_stage, if_pos rfl, State.putChan_chan, if_pos rfl]
  exact ⟨rfl, rfl⟩

theorem unmasking_within (c : Chan) (ch : Channel) (s : State) : Within { dma := true, staging := true } s (unmasking c ch s) :=
  Within.ite ((putChan_within _ _ _).seq (startCursor_within c _)) ((putChan_within _ _ _).mono (by decide))

/-- The record from which an IDLE or DONE channel resumes (R78). -/
def Channel.resumes (ch : Channel) : Channel := if ch.state = .finished then ch.loadCounts else ch

theorem Channel.loadCounts_keeps (ch : Channel) : ch.loadCounts.mode = ch.mode ∧ ch.loadCounts.dir = ch.dir ∧
    ch.loadCounts.soft = ch.soft ∧ ch.loadCounts.blockRun = ch.blockRun := by
  unfold Channel.loadCounts
  split <;> exact ⟨rfl, rfl, rfl, rfl⟩

theorem Channel.resumes_keeps (ch : Channel) : ch.resumes.mode = ch.mode ∧ ch.resumes.dir = ch.dir ∧
    ch.resumes.soft = ch.soft ∧ ch.resumes.blockRun = ch.blockRun := by
  unfold Channel.resumes
  split
  · exact ch.loadCounts_keeps
  · exact ⟨rfl, rfl, rfl, rfl⟩

theorem clearMask_resumes {c : Chan} {s : State} (h : (s.chan c).state = .idle ∨ (s.chan c).state = .finished) :
    clearMask c s = causing (unmask c (s.chan c).resumes) s := by
  rcases h with h | h <;> simp [clearMask, Channel.resumes, h]

theorem clearMask_other_state {c : Chan} {s : State} (hi : (s.chan c).state ≠ .idle) (hf : (s.chan c).state ≠ .finished) :
    clearMask c s = s := by
  cases hs : (s.chan c).state
  all_goals first
    | exact absurd hs hi
    | exact absurd hs hf
    | simp only [clearMask, hs]

/-- The record of a channel whose mask is cleared: the counts it resumes from, its place, and what STARVED may have told. -/
theorem clearMask_chan {c : Chan} {s : State} (h : (s.chan c).state = .idle ∨ (s.chan c).state = .finished) :
    (clearMask c s).chan c = { (s.chan c).resumes with
      mask := false, state := ((clearMask c s).chan c).state, faults := ((clearMask c s).chan c).faults
      firstFault := ((clearMask c s).chan c).firstFault, owedFaults := ((clearMask c s).chan c).owedFaults
      owedAddr := ((clearMask c s).chan c).owedAddr, faultCauses := ((clearMask c s).chan c).faultCauses } := by
  have hcause := causing_chan_eq (unmask c (s.chan c).resumes) s c
  have hplace := placeChan_chan true c (unmasking c (s.chan c).resumes s)
  rw [unmasking_chan, ← unmask_eq] at hplace
  rw [clearMask_resumes h, hcause, hplace]

theorem clearMask_stage {c : Chan} {s : State} (h : (s.chan c).state = .idle ∨ (s.chan c).state = .finished) :
    (clearMask c s).stage c = (unmasking c (s.chan c).resumes s).stage c := by
  rw [clearMask_resumes h]
  show (unmask c (s.chan c).resumes s).stage c = _
  rw [unmask_eq, State.stage, (placeChan_within true c _).staging rfl]
  rfl

/-- Where the channel is placed: by its request, and by what staging can serve of it now. -/
theorem clearMask_state {c : Chan} {s : State} (h : (s.chan c).state = .idle ∨ (s.chan c).state = .finished) :
    ((clearMask c s).chan c).state =
      if requestActive c s then (if canServe c (clearMask c s) then .ready else .stalled) else .waiting := by
  have hun := unmasking_chan c (s.chan c).resumes s
  have hchan := clearMask_chan h
  obtain ⟨hmode, -, hsoft, hrun⟩ := (s.chan c).resumes_keeps
  have hw := unmasking_within c (s.chan c).resumes s
  have hactive : requestActive c (unmasking c (s.chan c).resumes s) = requestActive c s :=
    requestActive_congr (by rw [hun]; exact hmode) (by rw [hun]; exact hsoft) (by rw [hun]; exact hrun) (hw.pins rfl) (hw.slot rfl)
  have horder : (clearMask c s).order = (unmasking c (s.chan c).resumes s).order :=
    ((clearMask_within c s).order rfl).trans (hw.order rfl).symm
  have hserve : canServe c (clearMask c s) = canServe c (unmasking c (s.chan c).resumes s) :=
    canServe_congr (by rw [hchan, hun]) (by rw [hchan, hun]) (by rw [hchan, hun]) (by rw [hchan, hun]) (clearMask_stage h)
      (by rw [stagedCount, stagedCount, clearMask_stage h, horder])
  rw [hserve, ← hactive]
  have hstate : ((clearMask c s).chan c).state = ((unmask c (s.chan c).resumes s).chan c).state := by
    rw [clearMask_resumes h, causing_chan_eq]
  rw [hstate, unmask_eq, placeChan_state (by rw [hun]; rfl)]
  rfl

theorem clearMask_placeable {c : Chan} {s : State} (h : (s.chan c).state = .idle ∨ (s.chan c).state = .finished) :
    ((clearMask c s).chan c).mask = false ∧ ((clearMask c s).chan c).state.placeable = true := by
  refine ⟨by rw [clearMask_chan h], ?_⟩
  rw [clearMask_state h]
  split
  · split <;> rfl
  · rfl

/-- Every channel named is unmasked that may be at once. -/
def clearNamed (r : Record) (s : State) : State := forChans (fun c x => if (chanMarks r.addr 0).get c then clearMask c x else x) s

theorem clearTurn_only (r : Record) (c : Chan) (s : State) :
    OnlyChan c s (if (chanMarks r.addr 0).get c then clearMask c s else s) := .ite (.clearMask c s) (.refl c s)

theorem channelMaskClear_good {r : Record} {s : State} (h : ¬ namesNoChannel r) : channelMaskClear r s =
    kickBus (maskCheck (setWork (.maskClear (chanMarks r.addr 0) (waitingClears (chanMarks r.addr 0) s)) (clearNamed r s))) := by
  rw [channelMaskClear, (chanMarksGood_iff r).2 h]
  rfl

theorem clearNamed_within (r : Record) (s : State) : Within { dma := true, staging := true } s (clearNamed r s) :=
  forChans_within (fun c x => Within.ite (clearMask_within c x) (.refl _ x)) s

theorem clearNamed_same {r : Record} {s : State} {c : Chan}
    (h : named r c = false ∨ ((s.chan c).state ≠ .idle ∧ (s.chan c).state ≠ .finished)) : Same c s (clearNamed r s) := by
  obtain ⟨x, -, hx, hy⟩ := forChans_own (fun c x _ => clearTurn_only r c x) (rfl : workOf s = _) c
  rw [chanMarks_get] at hy
  rcases h with h | ⟨hi, hf⟩
  · rw [h, if_neg (by decide)] at hy
    exact hx.trans hy
  · rw [clearMask_other_state (by rw [hx.chan]; exact hi) (by rw [hx.chan]; exact hf), ite_self] at hy
    exact hx.trans hy

theorem clearNamed_own {r : Record} {s : State} {c : Chan} (h : named r c = true) :
    ∃ x, Same c s x ∧ Same c (clearMask c x) (clearNamed r s) := by
  obtain ⟨x, -, hx, hy⟩ := forChans_own (fun c x _ => clearTurn_only r c x) (rfl : workOf s = _) c
  rw [chanMarks_get, h, if_pos rfl] at hy
  exact ⟨x, hx, hy⟩

theorem clearNamed_placeable {r : Record} {s : State} {c : Chan} (h : named r c = true)
    (hs : (s.chan c).state = .idle ∨ (s.chan c).state = .finished) :
    ((clearNamed r s).chan c).mask = false ∧ ((clearNamed r s).chan c).state.placeable = true := by
  obtain ⟨x, hx, hy⟩ := clearNamed_own (s := s) h
  rw [hy.chan]
  exact clearMask_placeable (by rw [hx.chan]; exact hs)

/-- What the clear makes of an IDLE or DONE channel (R71, R72, R78, R111). -/
theorem clearNamed_resumes {r : Record} {s : State} {c : Chan} (h : named r c = true)
    (hs : (s.chan c).state = .idle ∨ (s.chan c).state = .finished) :
    ((clearNamed r s).chan c).state =
      (if requestActive c s then (if canServe c (clearNamed r s) then .ready else .stalled) else .waiting) ∧
    ((s.chan c).dir = .fromMemory → ((clearNamed r s).stage c).chunks = [] ∧ ((clearNamed r s).stage c).cursor =
      ⟨((clearNamed r s).chan c).page, ((clearNamed r s).chan c).curAddr, ((clearNamed r s).chan c).curCount, .reading, .no⟩) ∧
    (clearNamed r s).chan c = { (s.chan c).resumes with
      mask := false, state := ((clearNamed r s).chan c).state, faults := ((clearNamed r s).chan c).faults
      firstFault := ((clearNamed r s).chan c).firstFault, owedFaults := ((clearNamed r s).chan c).owedFaults
      owedAddr := ((clearNamed r s).chan c).owedAddr, faultCauses := ((clearNamed r s).chan c).faultCauses } := by
  obtain ⟨x, hx, hy⟩ := clearNamed_own (s := s) h
  have hsx : (x.chan c).state = .idle ∨ (x.chan c).state = .finished := by rw [hx.chan]; exact hs
  have hchan := clearMask_chan hsx
  rw [hx.chan, ← hy.chan] at hchan
  refine ⟨?_, fun hd => ?_, hchan⟩
  · rw [hy.canServe, hy.chan, clearMask_state hsx, requestActive_congr (s := s) (t := x) (by rw [hx.chan]) (by rw [hx.chan]) (by rw [hx.chan])
      (hx.within.pins rfl) (hx.within.slot rfl)]
  · rw [hy.stage, clearMask_stage hsx, hchan, hx.chan]
    exact unmasking_stage (by rw [(Channel.resumes_keeps _).2.1]; exact hd)

theorem Channel.resumes_of_idle {ch : Channel} (h : ch.state = .idle) : ch.resumes = ch := by
  rw [Channel.resumes, if_neg (by rw [h]; decide)]

theorem Channel.resumes_of_next {ch : Channel} {b : Block} (h : ch.state = .finished) (hb : ch.nextBlock = some b) : ch.resumes =
    { ch with page := b.page, baseAddr := b.addr, baseCount := b.count, curAddr := b.addr, curCount := b.count, nextBlock := none } := by
  simp only [Channel.resumes, if_pos h, Channel.loadCounts, hb]

theorem Channel.resumes_of_base {ch : Channel} (h : ch.state = .finished) (hb : ch.nextBlock = none) :
    ch.resumes = { ch with curAddr := ch.baseAddr, curCount := ch.baseCount } := by
  simp only [Channel.resumes, if_pos h, Channel.loadCounts, hb]

/-- A CHANNEL MASK clear ends when every channel it names is unmasked, and stays in flight else (R79). -/
theorem maskCheck_clear {s : State} {m w : PerChan Bool} (h : workOf s = .maskClear m w) :
    ((∀ c, m.get c = true → (s.chan c).mask = false) → maskCheck s = answerPlain .ok s) ∧
    ((∃ c, m.get c = true ∧ (s.chan c).mask = true) → maskCheck s = s) := by
  simp only [maskCheck, h]
  refine ⟨fun hall => if_pos ?_, fun ⟨c, hm, hk⟩ => if_neg ?_⟩
  · rw [List.all_eq_true]
    intro c _
    cases hm : m.get c
    · rfl
    · rw [hall c hm]; rfl
  · rw [List.all_eq_true]
    intro hall
    have hc := hall c (mem_Chan_all c)
    rw [hm, hk] at hc
    cases hc

theorem masked_iff (st : ChanState) : st.masked = true ↔ st = .idle ∨ st = .finished ∨ ∃ d, st = .stopping d := by
  cases st <;> simp [ChanState.masked]

/-- A stopping that ends with a clear waiting for it: the channel resumes, and the clear looks whether it is done (R78, R79). -/
theorem endStopping_of_clear {m w : PerChan Bool} {c : Chan} {d : Dest} {s : State} {e : Exec} (he : s.queue.exec = some e)
    (hwork : e.work = .maskClear m w) (hc : w.get c = true) (hs : (s.chan c).state = .stopping d) (hstill : stillStopping c s = false) :
    endStopping c s = maskCheck (clearMask c ({ s with queue := { s.queue with
      exec := some { e with work := .maskClear m (w.put c false) } } }.putChan c { s.chan c with state := d.state })) := by
  rw [endStopping, hs]
  dsimp only
  rw [hstill, if_neg (by decide)]
  refine congrArg maskCheck ?_
  have hof (v : Channel) : workOf (s.putChan c v) = .maskClear m w := by
    simp only [workOf, State.putChan_queue, he, hwork]
  have hset (v : Channel) : setWork (.maskClear m (w.put c false)) (s.putChan c v) = { s with queue := { s.queue with
      exec := some { e with work := .maskClear m (w.put c false) } } }.putChan c v :=
    setWork_of (s := s.putChan c v) he
  simp only [waitingClear, hof, hc, if_true, hset]
  cases d <;> rfl

/-- Settles O29: each channel named that may be is unmasked at once, and a stopping one when its stopping ends. -/
theorem channelMaskClearStartsChannels : Obligations.ChannelMaskClearStartsChannels := by
  intro s x hj hk hf
  have hexec {u : State} (h : channelMaskClear x.request (setPhase .active s) = u) : exec .channelMaskClear s = .next u :=
    congrArg Host.Outcome.next ((whenTaken_taken channelMaskClear hj.taken (by simp [hk, hf])).trans h)
  refine ⟨fun hn => ⟨_, hexec ?bad, endRequest_of_taken .badRequest 0 zeros8 hj.taken⟩, fun hn ho hagree => ?clears,
    fun m w c d v e he hwork hwc hmc hs hown hmas hstaged => ?stopped⟩
  case bad =>
    have hbad : chanMarksGood x.request.addr = false := by
      rw [← Bool.not_eq_true, chanMarksGood_iff]
      exact fun k => k hn
    rw [channelMaskClear, hbad]
    rfl
  case clears =>
    have hw := clearNamed_within x.request (setPhase .active s)
    have hqueue : (clearNamed x.request (setPhase .active s)).queue = { s.queue with exec := some { x with phase := .active } } := by
      rw [hw.queue rfl, setPhase_of hj.1]
    let left := waitingClears (chanMarks x.request.addr 0) (setPhase .active s)
    let waiting := setWork (.maskClear (chanMarks x.request.addr 0) left) (clearNamed x.request (setPhase .active s))
    have hset : waiting = _ := setWork_of (x := { x with phase := .active }) (by rw [hqueue])
    have hcheck := maskCheck_clear (s := waiting) (m := chanMarks x.request.addr 0) (w := left) (by rw [hset]; rfl)
    simp only [chanMarks_get] at hcheck
    have howned : kickBus (maskCheck waiting) = maskCheck waiting := by
      refine kickBus_owned ?_
      rw [(maskCheck_within _).arb rfl, hset]
      exact fun k => ho ((congrArg Arbiter.owner (hw.arb rfl)).symm.trans k)
    have hchan (c) : waiting.chan c = (clearNamed x.request (setPhase .active s)).chan c := by rw [hset]; rfl
    refine ⟨_, _, hexec ((channelMaskClear_good hn).trans howned), hw.withQueue, fun c hc => ?_, fun c hc => ⟨fun hs => ?_, fun hs => ?_,
      fun b hs hb => ?_, fun hs hb => ?_⟩, fun hall => ?_, fun hsome => ?_⟩
    · have hsame := clearNamed_same (s := setPhase .active s) hc
      exact ⟨hsame.chan, hsame.stage⟩
    · obtain ⟨hmask, hplace⟩ := clearNamed_placeable (s := setPhase .active s) hc hs
      obtain ⟨hstate, hdir, -⟩ := clearNamed_resumes (s := setPhase .active s) hc hs
      exact ⟨hmask, hplace, hstate, hdir⟩
    · obtain ⟨-, -, hrec⟩ := clearNamed_resumes (s := setPhase .active s) hc (.inl hs)
      rw [Channel.resumes_of_idle (ch := (setPhase .active s).chan c) hs] at hrec
      exact ⟨(congrArg Channel.page hrec :), (congrArg Channel.curAddr hrec :), (congrArg Channel.curCount hrec :), (congrArg Channel.nextBlock hrec :)⟩
    · obtain ⟨-, -, hrec⟩ := clearNamed_resumes (s := setPhase .active s) hc (.inr hs)
      rw [Channel.resumes_of_next (ch := (setPhase .active s).chan c) hs hb] at hrec
      exact ⟨(congrArg Channel.page hrec :), (congrArg Channel.curAddr hrec :), (congrArg Channel.curCount hrec :), (congrArg Channel.baseAddr hrec :),
        (congrArg Channel.baseCount hrec :), (congrArg Channel.nextBlock hrec :)⟩
    · obtain ⟨-, -, hrec⟩ := clearNamed_resumes (s := setPhase .active s) hc (.inr hs)
      rw [Channel.resumes_of_base (ch := (setPhase .active s).chan c) hs hb] at hrec
      exact ⟨(congrArg Channel.page hrec :), (congrArg Channel.curAddr hrec :), (congrArg Channel.curCount hrec :)⟩
    · have hdone : maskCheck waiting = answerPlain .ok waiting := by
        refine hcheck.1 fun c hc => ?_
        rw [hchan]
        by_cases hs : (s.chan c).state = .idle ∨ (s.chan c).state = .finished
        · exact (clearNamed_placeable (s := setPhase .active s) hc hs).1
        · rw [not_or] at hs
          rw [(clearNamed_same (s := setPhase .active s) (.inr hs)).chan]
          refine (hagree c).trans ?_
          rw [← Bool.not_eq_true, masked_iff]
          rintro (h | h | ⟨d, h⟩)
          · exact hs.1 h
          · exact hs.2 h
          · exact hall c d hc h
      rw [hdone, hset, hqueue]
      exact endRequest_of_exec (s := s) (e := { x with phase := .active, work := .maskClear (chanMarks x.request.addr 0) left })
        (w := { clearNamed x.request (setPhase .active s) with queue := { s.queue with
          exec := some { x with phase := .active, work := .maskClear (chanMarks x.request.addr 0) left } } }) .ok 0 zeros8 rfl
    · have hstay : maskCheck waiting = waiting := by
        obtain ⟨c, d, hc, hs⟩ := hsome
        refine hcheck.2 ⟨c, hc, ?_⟩
        rw [hchan, (clearNamed_same (s := setPhase .active s) (.inr ⟨by rw [show ((setPhase .active s).chan c).state = _ from hs]; nofun,
          by rw [show ((setPhase .active s).chan c).state = _ from hs]; nofun⟩)).chan]
        exact (hagree c).trans ((masked_iff _).2 (.inr (.inr ⟨d, hs⟩)))
      rw [hstay, hset]
      refine ⟨chanMarks x.request.addr 0, left, by rw [hqueue], fun c => ⟨chanMarks_get x.request c, ?_⟩⟩
      show (PerChan.ofFn _).get c = _
      rw [PerChan.get_ofFn, chanMarks_get]
      rfl
  case stopped =>
    have hstill : stillStopping c v = false := by
      unfold stillStopping
      cases hsm : stagesToMemory (v.chan c)
      · simp [hown, hmas]
      · simp [hown, hmas, hstaged hsm]
    let y := { v with queue := { v.queue with exec := some { e with work := .maskClear m (w.put c false) } } }.putChan c
      { v.chan c with state := d.state }
    have hend : endStopping c v = maskCheck (clearMask c y) := endStopping_of_clear he hwork hwc hs hstill
    have hy : (y.chan c).state = .idle ∨ (y.chan c).state = .finished := by
      rw [show y.chan c = { v.chan c with state := d.state } from (State.putChan_chan ..).trans (if_pos rfl)]
      cases d
      · exact .inl rfl
      · exact .inr rfl
    obtain ⟨hmask, hplace⟩ := clearMask_placeable hy
    have hqueue : (clearMask c y).queue = { v.queue with exec := some { e with work := .maskClear m (w.put c false) } } :=
      (clearMask_within c y).queue rfl
    have hother (b : Chan) (hb : b ≠ c) : (clearMask c y).chan b = v.chan b :=
      ((OnlyChan.clearMask c y).chan b hb).trans ((State.putChan_chan ..).trans (if_neg hb))
    have hcheck := maskCheck_clear (s := clearMask c y) (m := m) (w := w.put c false) (by simp only [workOf, hqueue])
    rw [hend]
    refine ⟨fun hall => ⟨clearMask c y, ?_, hmask, hplace⟩, fun ⟨b, hb, hmb, hkb⟩ => ?_⟩
    · rw [hcheck.1 fun b hmb => ?_]
      · exact endRequest_ends .ok 0 zeros8 _ { e with work := .maskClear m (w.put c false) } (by rw [hqueue])
      · by_cases hb : b = c
        · rw [hb]; exact hmask
        · rw [hother b hb]; exact hall b hb hmb
    · rw [hcheck.2 ⟨b, hmb, by rw [hother b hb]; exact hkb⟩]
      exact ⟨hmask, hplace, hqueue⟩

end Sys2Proof.Machine
end

section
/-! PROOF. FENCE (R51, R52, R108, R127): the runs its drain closes, channel by channel, the writes of the master buffer it decides, and what
it then waits for. -/

namespace Sys2Proof.Machine

set_option Elab.async false

/-! ## Deciding the master buffer (R122, R127) -/

theorem followers_take (entry : Nat) : ∀ (last host : Nat) (us : List MasterEntry),
    followers entry last host us = us.take (followers entry last host us).length
  | _, _, [] => rfl
  | last, host, e :: es => by
    unfold followers
    split
    · rw [List.length_cons, List.take_succ_cons, ← followers_take entry]
    · rfl

/-- The entries the next write takes are the oldest ones. -/
theorem nextGroup_take (us : List MasterEntry) : nextGroup us = us.take (nextGroup us).length := by
  cases us with
  | nil => rfl
  | cons e es =>
    rw [nextGroup, List.length_cons, List.take_succ_cons, ← followers_take]

section

variable {ds us : List MasterEntry} (hd : ∀ e, e ∈ ds → e.decided = true) (hu : ∀ e, e ∈ us → e.decided = false)

include hd hu

theorem takeWhile_decided : (ds ++ us).takeWhile MasterEntry.decided = ds := by
  rw [List.takeWhile_append_of_pos hd]
  cases us with
  | nil => simp
  | cons e es => rw [List.takeWhile_cons_of_neg (by rw [hu e (by simp)]; decide), List.append_nil]

theorem undecided_append : undecided (ds ++ us) = us := by
  rw [undecided, List.dropWhile_append_of_pos hd]
  cases us with
  | nil => rfl
  | cons e es => rw [List.dropWhile_cons_of_neg (by rw [hu e (by simp)]; decide)]

/-- With entries undecided, one write of the oldest is decided at the tail of the order. -/
theorem decideGroup_some {s : State} {e : MasterEntry} {es : List MasterEntry} (hb : s.master.buffer = ds ++ us)
    (hg : nextGroup us = e :: es) : decideGroup s = { s with
      master := { s.master with buffer := ds ++ (e :: es).map MasterEntry.decide ++ us.drop (e :: es).length }
      order := s.order ++ [.write (.master (e :: es).length) e.host ((e :: es).flatMap MasterEntry.bytes)] } := by
  have htake : us.take (e :: es).length = e :: es := by
    have h := nextGroup_take us
    rw [hg] at h
    exact h.symm
  unfold decideGroup
  rw [hb, undecided_append hd hu, takeWhile_decided hd hu, hg]
  dsimp only
  rw [htake]
  rfl

omit hd hu in
theorem nextGroup_nil {us : List MasterEntry} (h : nextGroup us = []) : us = [] := by
  cases us with
  | nil => rfl
  | cons e es => cases h

end

theorem decideGroup_done {ds : List MasterEntry} {s : State} (hd : ∀ e, e ∈ ds → e.decided = true) (hb : s.master.buffer = ds) :
    decideGroup s = s := by
  have h : undecided s.master.buffer = [] := by
    rw [hb]
    simpa using undecided_append (us := []) hd nofun
  rw [decideGroup, h]
  rfl

theorem decideGroups_done {ds : List MasterEntry} {s : State} (n : Nat) (hd : ∀ e, e ∈ ds → e.decided = true) (hb : s.master.buffer = ds) :
    decideGroups n s = s := by
  induction n with
  | zero => rfl
  | succ n ih => rw [decideGroups, decideGroup_done hd hb, ih]

theorem PortWrites.cons {e : MasterEntry} {es : List MasterEntry} {ws : List OrderItem} {us : List MasterEntry} (h : PortWrites ws us) :
    PortWrites (.write (.master (e :: es).length) e.host ((e :: es).flatMap MasterEntry.bytes) :: ws) ((e :: es) ++ us) := by
  obtain ⟨gs, hf, hw, hne⟩ := h
  refine ⟨(e :: es) :: gs, by rw [List.flatten_cons, hf], by rw [hw]; rfl, fun g hg => ?_⟩
  rcases List.mem_cons.1 hg with rfl | hg
  · exact List.cons_ne_nil _ _
  · exact hne g hg

theorem PortWrites.nil : PortWrites [] [] := ⟨[], rfl, rfl, nofun⟩

/-- As many groups as there are entries decide every one: the writes they are decided as take them in buffer order. -/
theorem decideGroups_all (n : Nat) : ∀ {ds us : List MasterEntry} {s : State}, us.length ≤ n →
    (∀ e, e ∈ ds → e.decided = true) → (∀ e, e ∈ us → e.decided = false) → s.master.buffer = ds ++ us →
    ∃ ws, PortWrites ws us ∧ decideGroups n s = { s with
      master := { s.master with buffer := ds ++ us.map MasterEntry.decide }, order := s.order ++ ws } := by
  induction n with
  | zero =>
    intro ds us s hn hd hu hb
    obtain rfl := List.eq_nil_of_length_eq_zero (Nat.le_zero.1 hn)
    refine ⟨[], .nil, ?_⟩
    rw [List.map_nil, ← hb, List.append_nil]
    rfl
  | succ n ih =>
    intro ds us s hn hd hu hb
    cases hg : nextGroup us with
    | nil =>
      obtain rfl := nextGroup_nil hg
      refine ⟨[], .nil, ?_⟩
      rw [decideGroups_done _ hd (by rw [hb, List.append_nil]), List.map_nil, ← hb, List.append_nil]
    | cons e es =>
      have hsplit : us = (e :: es) ++ us.drop (e :: es).length := by
        have htake := nextGroup_take us
        rw [hg] at htake
        conv_lhs => rw [← List.take_append_drop (e :: es).length us, ← htake]
      have hlen : (us.drop (e :: es).length).length ≤ n := by
        rw [List.length_drop, List.length_cons]
        omega
      obtain ⟨ws, hws, hrun⟩ := ih (ds := ds ++ (e :: es).map MasterEntry.decide) (us := us.drop (e :: es).length)
        (s := decideGroup s) hlen
        (fun f hf => by
          rcases List.mem_append.1 hf with hf | hf
          · exact hd f hf
          · obtain ⟨g, -, rfl⟩ := List.mem_map.1 hf
            rfl)
        (fun f hf => hu f (List.mem_of_mem_drop hf)) (by rw [decideGroup_some hd hu hb hg])
      have hcons := hws.cons (e := e) (es := es)
      rw [← hsplit] at hcons
      refine ⟨_, hcons, ?_⟩
      have hbuf : ds ++ us.map MasterEntry.decide =
          ds ++ (e :: es).map MasterEntry.decide ++ (us.drop (e :: es).length).map MasterEntry.decide := by
        rw [List.append_assoc, ← List.map_append, ← hsplit]
      rw [decideGroups, hrun, decideGroup_some hd hu hb hg, hbuf]
      simp only [List.append_assoc, List.singleton_append]

/-- Every entry not yet decided is decided (R123, R127). -/
theorem decideAll_eq {ds us : List MasterEntry} {s : State} (hd : ∀ e, e ∈ ds → e.decided = true) (hu : ∀ e, e ∈ us → e.decided = false)
    (hb : s.master.buffer = ds ++ us) : ∃ ws, PortWrites ws us ∧ decideAll s = { s with
      master := { s.master with buffer := ds ++ us.map MasterEntry.decide }, order := s.order ++ ws } :=
  decideGroups_all _ (by rw [hb, List.length_append]; omega) hd hu hb

/-- A drain mark on an empty buffer does nothing; on another it decides what is undecided and covers the buffer (R127). -/
theorem drainMark_empty {s : State} (h : s.master.buffer = []) : drainMark s = s := by
  rw [drainMark, h]
  rfl

theorem drainMark_eq {ds us : List MasterEntry} {s : State} (hd : ∀ e, e ∈ ds → e.decided = true) (hu : ∀ e, e ∈ us → e.decided = false)
    (hb : s.master.buffer = ds ++ us) (hne : s.master.buffer ≠ []) : ∃ ws, PortWrites ws us ∧ drainMark s = { s with
      master := { s.master with
        buffer := ds ++ us.map MasterEntry.decide, drains := s.master.drains ++ [s.master.buffer.length] }
      order := s.order ++ ws } := by
  obtain ⟨ws, hws, hall⟩ := decideAll_eq hd hu hb
  refine ⟨ws, hws, ?_⟩
  rw [drainMark, if_neg (by simpa using hne), hall, hb]
  simp only [List.length_append, List.length_map]
  rfl

/-! ## The runs a drain closes (R106, R108) -/

/-- The write of the open run that a flush demand closes. -/
def flushedRun (s : State) (c : Chan) : List OrderItem :=
  match (s.stage c).opened with
  | some run => if stagesToMemory (s.chan c) then [.write (.run c) run.hostFirst run.bytes] else []
  | none => []

theorem closeRun_order (c : Chan) (s : State) : (closeRun c s).order = s.order ++
    (match (s.stage c).opened with
      | some run => [.write (.run c) run.hostFirst run.bytes]
      | none => []) := by
  cases h : (s.stage c).opened with
  | none => rw [closeRun_none h, List.append_nil]
  | some r => rw [closeRun_of_opened h]

theorem flushDemand_order (c : Chan) (s : State) : (flushDemand c s).order = s.order ++ flushedRun s c := by
  have hclose := closeRun_order c s
  cases hst : stagesToMemory (s.chan c)
  · rw [flushDemand, hst, if_neg (by decide), flushedRun]
    cases (s.stage c).opened <;> simp [hst]
  · have hrun : (flushDemand c s).order = (closeRun c s).order := by
      rw [flushDemand, if_pos hst]
      dsimp only
      split <;> rfl
    rw [hrun, hclose, flushedRun]
    cases (s.stage c).opened <;> simp [hst]

/-- The flush demands of the channels named, one channel after the other. -/
def flushNamed (d : PerChan Bool) (s : State) : State := forChans (fun c x => if d.get c then flushDemand c x else x) s

theorem flushTurn_only (d : PerChan Bool) (c : Chan) (s : State) : OnlyChan c s (if d.get c then flushDemand c s else s) :=
  .ite (.flushDemand c s) (.refl c s)

theorem Same.flushedRun {c : Chan} {s t : State} (h : Same c s t) : flushedRun t c = flushedRun s c := by
  rw [Sys2Proof.Machine.flushedRun, Sys2Proof.Machine.flushedRun, h.stage, h.chan]

/-- The run that a request names for its flush is closed where the request stands. -/
theorem flushTurns_order (d : PerChan Bool) : ∀ (l : List Chan) (s : State), l.Nodup →
    (l.foldl (fun x c => if d.get c then flushDemand c x else x) s).order =
      s.order ++ l.flatMap (fun c => if d.get c then flushedRun s c else [])
  | [], s, _ => by simp
  | c :: l, s, hl => by
    obtain ⟨hc, hl⟩ := List.nodup_cons.1 hl
    rw [List.foldl_cons, flushTurns_order d l _ hl, List.flatMap_cons, ← List.append_assoc]
    have hrest : l.flatMap (fun b => if d.get b then flushedRun (if d.get c then flushDemand c s else s) b else []) =
        l.flatMap (fun b => if d.get b then flushedRun s b else []) := by
      refine List.flatMap_congr fun b hb => ?_
      rw [((flushTurn_only d c s).same fun h => hc (h ▸ hb)).flushedRun]
    rw [hrest]
    congr 1
    split
    · exact flushDemand_order c s
    · rw [List.append_nil]

theorem flushNamed_order (d : PerChan Bool) (s : State) :
    (flushNamed d s).order = s.order ++ Chan.all.flatMap (fun c => if d.get c then flushedRun s c else []) :=
  flushTurns_order d Chan.all s (by decide)

theorem flushNamed_not {d : PerChan Bool} {s : State} {c : Chan} (h : d.get c = false) : Same c s (flushNamed d s) := by
  obtain ⟨x, -, hx, hy⟩ := forChans_own (fun c x _ => flushTurn_only d c x) (rfl : workOf s = _) c
  rw [h, if_neg (by decide)] at hy
  exact hx.trans hy

theorem flushNamed_own {d : PerChan Bool} {s : State} {c : Chan} (h : d.get c = true) (hst : stagesToMemory (s.chan c) = true) :
    ((flushNamed d s).stage c).opened = none ∧
      ((flushNamed d s).stage c).marks = (s.stage c).marks ++ (if stagedCount c s = 0 then [] else [stagedCount c s]) := by
  obtain ⟨x, -, hx, hy⟩ := forChans_own (fun c x _ => flushTurn_only d c x) (rfl : workOf s = _) c
  rw [h, if_pos rfl] at hy
  have hsx : stagesToMemory (x.chan c) = true := by rw [hx.chan]; exact hst
  have hstage : (flushNamed d s).stage c = (flushDemand c x).stage c := hy.stage
  rw [hstage, flushDemand_opened_same hsx, flushDemand_marks hsx, hx.stage, hx.stagedCount]
  exact ⟨rfl, rfl⟩

theorem flushNamed_within (d : PerChan Bool) (s : State) : Within { staging := true, order := true } s (flushNamed d s) :=
  forChans_within (fun c x => Within.ite (flushDemand_within c x) (.refl _ x)) s

theorem makeDrain_eq (d : PerChan Bool) (m : Bool) (s : State) :
    makeDrain d m s = if m then drainMark (flushNamed d s) else flushNamed d s := rfl

/-! ## FENCE (R51, R52) -/

theorem stagesToMemory_iff (ch : Channel) : stagesToMemory ch = true ↔ ch.dir = .toMemory ∧ ch.mode ≠ .master := by
  rw [stagesToMemory, Bool.and_eq_true, decide_eq_true_eq, decide_eq_true_eq]

theorem drainCover_get (r : Record) (s : State) (c : Chan) : (drainCover (chanMarks r.addr 0) s).get c =
    if named r c ∧ (s.chan c).dir = .toMemory ∧ (s.chan c).mode ≠ .master then stagedCount c s else 0 := by
  rw [drainCover, PerChan.get_ofFn, chanMarks_get, flushCover]
  by_cases hn : named r c = true
  · by_cases hs : stagesToMemory (s.chan c) = true
    · rw [if_pos hn, if_pos hs, if_pos ⟨hn, (stagesToMemory_iff _).1 hs⟩]
    · rw [if_pos hn, if_neg hs, if_neg fun h => hs ((stagesToMemory_iff _).2 h.2)]
  · rw [if_neg hn, if_neg fun h => hn h.1]

theorem fenceMaster_iff (r : Record) (s : State) :
    fenceMaster r s = true ↔ flag1 r = true ∨ ∃ c, named r c = true ∧ (s.chan c).mode = .master := by
  rw [fenceMaster, Bool.or_eq_true, drainsMaster, List.any_eq_true]
  refine or_congr Iff.rfl ⟨fun ⟨c, _, h⟩ => ⟨c, ?_⟩, fun ⟨c, h⟩ => ⟨c, mem_Chan_all c, ?_⟩⟩
  · rwa [Bool.and_eq_true, decide_eq_true_eq, chanMarks_get] at h
  · rwa [Bool.and_eq_true, decide_eq_true_eq, chanMarks_get]

theorem fence_good {r : Record} {s : State} (h : ¬ namesNoChannel r) : fence r s =
    fenceCheck (setWork (.fence (fenceCovered r s) (drainWaits (chanMarks r.addr 0) (fenceMaster r s) s))
      (makeDrain (chanMarks r.addr 0) (fenceMaster r s) s)) := by
  rw [fence, (chanMarksGood_iff r).2 h]
  rfl

/-- What the drain of a FENCE leaves (R51). -/
theorem makeDrain_fence {r : Record} {s : State} {m : Bool} {ds us : List MasterEntry} (hb : s.master.buffer = ds ++ us)
    (hd : ∀ e, e ∈ ds → e.decided = true) (hu : ∀ e, e ∈ us → e.decided = false) :
    let u := makeDrain (chanMarks r.addr 0) m s
    (∀ c, u.stage c = (flushNamed (chanMarks r.addr 0) s).stage c) ∧ (m = false → u.master = s.master) ∧
    (∃ ws, u.order = s.order ++ Chan.all.flatMap (closedRun r s) ++ ws ∧ (m = false → ws = []) ∧ (m = true → PortWrites ws us)) ∧
    (m = true → s.master.buffer = [] → u.master = s.master) ∧
    (m = true → s.master.buffer ≠ [] → u.master = { s.master with
      buffer := ds ++ us.map MasterEntry.decide, drains := s.master.drains ++ [s.master.buffer.length] }) := by
  have hmaster : (flushNamed (chanMarks r.addr 0) s).master = s.master := (flushNamed_within _ s).master rfl
  have horder : (flushNamed (chanMarks r.addr 0) s).order = s.order ++ Chan.all.flatMap (closedRun r s) := by
    rw [flushNamed_order]
    refine congrArg (s.order ++ ·) (List.flatMap_congr fun c _ => ?_)
    rw [chanMarks_get, flushedRun, closedRun]
    cases (s.stage c).opened <;> cases named r c <;> simp
  have hstage (c) : (makeDrain (chanMarks r.addr 0) m s).stage c = (flushNamed (chanMarks r.addr 0) s).stage c := by
    rw [makeDrain_eq]
    cases m
    · rfl
    · rw [if_pos rfl, State.stage, (drainMark_within _).staging rfl]
      rfl
  intro u
  cases m with
  | false =>
    exact ⟨hstage, fun _ => hmaster, ⟨[], by rw [List.append_nil]; exact horder, fun _ => rfl, nofun⟩, nofun, nofun⟩
  | true =>
    by_cases hnil : s.master.buffer = []
    · have hu0 : u = flushNamed (chanMarks r.addr 0) s := drainMark_empty (s := flushNamed (chanMarks r.addr 0) s) (by rw [hmaster]; exact hnil)
      obtain ⟨-, rfl⟩ := List.append_eq_nil_iff.1 (hb.symm.trans hnil)
      refine ⟨hstage, nofun, ⟨[], by rw [hu0, List.append_nil]; exact horder, nofun, fun _ => .nil⟩, fun _ _ => by rw [hu0]; exact hmaster,
        fun _ h => absurd hnil h⟩
    · obtain ⟨ws, hws, hmark⟩ := drainMark_eq (s := flushNamed (chanMarks r.addr 0) s) hd hu (by rw [hmaster]; exact hb)
        (by rw [hmaster]; exact hnil)
      have hu1 : u = drainMark (flushNamed (chanMarks r.addr 0) s) := rfl
      refine ⟨hstage, nofun, ⟨ws, by rw [hu1, hmark, ← horder], nofun, fun _ => hws⟩, fun _ h => absurd h hnil, fun _ _ => ?_⟩
      rw [hu1, hmark, hmaster]

theorem fenceCheck_of {s : State} {n : Nat} {w : Waits} (h : workOf s = .fence n w) :
    (w.complete = true → fenceCheck s = endRequest .ok n zeros8 s) ∧ (w.complete = false → fenceCheck s = s) := by
  simp only [fenceCheck, h]
  exact ⟨fun k => if_pos k, fun k => if_neg (by rw [k]; decide)⟩

theorem Waits.not_complete_master {w : Waits} (h : w.master ≠ 0) : w.complete = false := by simp [Waits.complete, h]

/-- Settles O24: the drain is made, and the request waits for what it covers. -/
theorem fenceCoversAndWaits : Obligations.FenceCoversAndWaits := by
  intro s x m cover n ds us hj hb hd hu hk hm hcover hn
  have hexec {u : State} (h : fence x.request (setPhase .active s) = u) : exec .fence s = .next u :=
    congrArg Host.Outcome.next ((whenTaken_taken fence hj.taken (by simp [ofKind, hk])).trans h)
  refine ⟨fun hbad => ⟨_, hexec ?_, endRequest_of_taken .badRequest 0 zeros8 hj.taken⟩, fun hgood => ?_⟩
  · have hno : chanMarksGood x.request.addr = false := by
      rw [← Bool.not_eq_true, chanMarksGood_iff]
      exact fun k => k hbad
    rw [fence, hno]
    rfl
  have hmaster : fenceMaster x.request (setPhase .active s) = m := Bool.eq_iff_iff.2 ((fenceMaster_iff ..).trans hm.symm)
  have hget (c) : (drainCover (chanMarks x.request.addr 0) (setPhase .active s)).get c = cover c :=
    (drainCover_get x.request (setPhase .active s) c).trans (hcover c).symm
  have hchans : drainCover (chanMarks x.request.addr 0) (setPhase .active s) =
      ⟨cover .c0, cover .c1, cover .c2, cover .c3, cover .c5, cover .c6, cover .c7⟩ := by
    rw [← hget, ← hget, ← hget, ← hget, ← hget, ← hget, ← hget]
    rfl
  have hcovered : fenceCovered x.request (setPhase .active s) = n := by
    rw [fenceCovered, hmaster, hchans, hn]
    simp only [Chan.all, List.map_cons, List.map_nil, List.sum_cons, List.sum_nil, PerChan.get, bufferBytes, Nat.add_zero, ← Nat.add_assoc]
    rfl
  let waits : Waits := { chans := ⟨cover .c0, cover .c1, cover .c2, cover .c3, cover .c5, cover .c6, cover .c7⟩
                         master := if m then s.master.buffer.length else 0 }
  let drained := makeDrain (chanMarks x.request.addr 0) m (setPhase .active s)
  have hwithin : Within { staging := true, order := true, master := true } (setPhase .active s) drained := makeDrain_within ..
  have hqueue : drained.queue = { s.queue with exec := some { x with phase := .active } } := by
    rw [hwithin.queue rfl, setPhase_of hj.1]
  have hset : setWork (.fence n waits) drained = { drained with queue := { s.queue with
      exec := some { x with phase := .active, work := .fence n waits } } } := by
    rw [setWork_of (x := { x with phase := .active }) (by rw [hqueue]), hqueue]
  have hrun : fence x.request (setPhase .active s) = fenceCheck (setWork (.fence n waits) drained) := by
    rw [fence_good hgood, hmaster, hcovered, drainWaits, hchans]
    rfl
  have hcheck := fenceCheck_of (s := setWork (.fence n waits) drained) (n := n) (w := waits) (by rw [hset]; rfl)
  obtain ⟨hstage, hm0, horder, hme, hmb⟩ := makeDrain_fence (r := x.request) (s := setPhase .active s) (m := m) hb hd hu
  have hwaits (c) : waits.chans.get c = cover c := by cases c <;> rfl
  refine ⟨_, _, hexec hrun, hwithin.withQueue, fun c hc hdir hmode => ?_, fun c hc => ?_, hm0, fun c hc hst => ?_, horder, hme, hmb,
    fun hz hmz => ?_, fun hsome => ?_⟩
  · exact (congrArg Staging.opened (hstage c)).trans (flushNamed_own (s := setPhase .active s) ((chanMarks_get ..).trans hc)
      (stagesToMemory_of hdir hmode)).1
  · exact (hstage c).trans (flushNamed_not (s := setPhase .active s) ((chanMarks_get ..).trans hc)).stage
  · exact (congrArg Staging.marks (hstage c)).trans (flushNamed_own (s := setPhase .active s) ((chanMarks_get ..).trans hc) hst).2
  · have hdone : waits.complete = true := by
      refine Waits.complete_of ?_ fun c => (hwaits c).trans (hz c)
      cases m
      · rfl
      · exact congrArg List.length (hmz rfl)
    rw [hcheck.1 hdone, hset]
    exact endRequest_of_exec (s := s) (e := { x with phase := .active, work := .fence n waits })
      (w := { drained with queue := { s.queue with exec := some { x with phase := .active, work := .fence n waits } } }) .ok n zeros8 rfl
  · have hstay : waits.complete = false := by
      rcases hsome with ⟨c, hc⟩ | ⟨rfl, hne⟩
      · exact Waits.not_complete (c := c) (by rw [hwaits]; exact hc)
      · exact Waits.not_complete_master fun h => hne (List.eq_nil_of_length_eq_zero h)
    rw [hcheck.2 hstay, hset]

end Sys2Proof.Machine
end

section
/-! PROOF. The master access port (R118 to R128): a card's writes posted, decided or held, its reads answered or filled, and how the port
moves on. -/

namespace Sys2Proof.Machine

set_option Elab.async false

/-! ## A posted write and the read line (R120) -/

theorem patchLine_length (bs : List Byte) : ∀ (old : List Byte) (off : Nat), (patchLine old off bs).length = old.length := by
  induction bs with
  | nil => exact fun _ _ => rfl
  | cons b bs ih =>
    intro old off
    rw [patchLine, ih, List.length_set]

theorem patchLine_getElem? (bs : List Byte) : ∀ (old : List Byte) (off j : Nat), j < old.length →
    (patchLine old off bs)[j]? = if off ≤ j ∧ j < off + bs.length then bs[j - off]? else old[j]? := by
  induction bs with
  | nil =>
    intro old off j hj
    rw [patchLine, if_neg (by simp)]
  | cons b bs ih =>
    intro old off j hj
    rw [patchLine, ih _ _ _ (by simpa using hj)]
    rcases Nat.lt_trichotomy j off with h | h | h
    · rw [if_neg (by omega), if_neg (by omega), List.getElem?_set_ne (by omega)]
    · subst h
      rw [if_neg (by omega), if_pos (by simp), List.getElem?_set_self hj, Nat.sub_self]
      rfl
    · have hsub : j - off = (j - (off + 1)) + 1 := by omega
      rw [List.length_cons, hsub, List.getElem?_cons_succ, List.getElem?_set_ne (by omega)]
      by_cases hin : j < off + 1 + bs.length
      · rw [if_pos (by omega), if_pos (by omega)]
      · rw [if_neg (by omega), if_neg (by omega)]

/-- What a posted write leaves of the read line. -/
def lineAfter (addr : Nat) (bs : List Byte) (old : Option ReadLine) : Option ReadLine :=
  old.map (fun rl => if lineBase addr = rl.addr then { rl with bytes := patchLine rl.bytes (addr - rl.addr) bs } else rl)

theorem lineAfter_follows (addr : Nat) (bs : List Byte) (old : Option ReadLine) : LineFollows addr bs old (lineAfter addr bs old) := by
  refine ⟨fun h => by rw [h]; rfl, fun rl h => ⟨fun hne => ?_, fun heq hlen => ?_⟩⟩
  · rw [h]
    exact congrArg some (if_neg hne)
  · rw [h]
    refine ⟨patchLine rl.bytes (addr - rl.addr) bs, congrArg some (if_pos heq), by rw [patchLine_length, hlen], fun j hj => ?_⟩
    have hle : rl.addr ≤ addr := heq ▸ Nat.div_mul_le_self ..
    rw [patchLine_getElem? _ _ _ _ (by rw [hlen]; exact hj)]
    by_cases hin : addr ≤ rl.addr + j ∧ rl.addr + j < addr + bs.length
    · rw [if_pos (by omega), if_pos hin]
      congr 1
      omega
    · rw [if_neg (by omega), if_neg hin]

/-- A fill of the line that a write falls in is marked to be ignored. -/
def fillAfter (addr : Nat) (old : Option Fill) : Option Fill :=
  old.map (fun f => if lineBase addr = f.addr then { f with ignored := true } else f)

theorem portIdle_false {s : State} (h : ∃ e, e ∈ s.master.buffer ∧ e.decided = true) : portIdle s = false := by
  obtain ⟨e, he, hd⟩ := h
  rw [portIdle, List.all_eq_false]
  exact ⟨e, he, by rw [hd]; decide⟩

theorem masterDecide_busy {s : State} (h : ∃ e, e ∈ s.master.buffer ∧ e.decided = true) : masterDecide s = s := by
  rw [masterDecide, portIdle_false h, if_neg (by decide)]

/-- A write posted behind writes of the port that are decided waits for its turn. -/
theorem postWrite_waits {a e h : Nat} {bs : List Byte} {s : State} (hd : ∃ e, e ∈ s.master.buffer ∧ e.decided = true) :
    postWrite a bs e h s = { s with master := { s.master with
      buffer := s.master.buffer ++ [⟨a, bs, e, h, false⟩], readLine := lineAfter a bs s.master.readLine
      fill := fillAfter a s.master.fill } } := by
  obtain ⟨x, hx, hd⟩ := hd
  exact masterDecide_busy ⟨x, List.mem_append_left _ hx, hd⟩

/-- A write posted in an empty buffer is decided at once. -/
theorem postWrite_first {a e h : Nat} {bs : List Byte} {s : State} (hb : s.master.buffer = []) :
    postWrite a bs e h s = { s with
      master := { s.master with
        buffer := [⟨a, bs, e, h, true⟩], readLine := lineAfter a bs s.master.readLine, fill := fillAfter a s.master.fill }
      order := s.order ++ [.write (.master 1) h bs] } := by
  let posted := s.putMaster { s.master with
    buffer := s.master.buffer ++ [⟨a, bs, e, h, false⟩], readLine := lineAfter a bs s.master.readLine
    fill := fillAfter a s.master.fill }
  have hbuffer : posted.master.buffer = [] ++ [⟨a, bs, e, h, false⟩] := by
    show s.master.buffer ++ _ = _
    rw [hb]
  have hidle : portIdle posted = true := by
    rw [portIdle, hbuffer]
    rfl
  have hdecide := decideGroup_some (s := posted) (ds := []) (us := [⟨a, bs, e, h, false⟩]) (e := ⟨a, bs, e, h, false⟩) (es := [])
    nofun (by simp) hbuffer rfl
  show masterDecide posted = _
  rw [masterDecide, if_pos hidle, hdecide]
  simp only [List.flatMap_cons, List.flatMap_nil, List.append_nil]
  rfl

theorem cycleBytes_eq (addr : BitVec 24) (wide : Bool) (data : BusWord) :
    (busBytes data).take (masterLen addr wide) = cycleBytes addr wide data := by
  have hw : masterWide addr wide = true ↔ wide ∧ addr.toNat % 2 = 0 := by rw [masterWide, Bool.and_eq_true, decide_eq_true_eq]
  unfold masterLen cycleBytes
  by_cases h : wide ∧ addr.toNat % 2 = 0
  · rw [if_pos (hw.2 h), if_pos h]
    rfl
  · rw [if_neg fun k => h (hw.1 k), if_neg h]
    rfl

theorem masterLen_eq (addr : BitVec 24) (wide : Bool) : masterLen addr wide = if wide ∧ addr.toNat % 2 = 0 then 2 else 1 := by
  have hw : masterWide addr wide = true ↔ wide ∧ addr.toNat % 2 = 0 := by rw [masterWide, Bool.and_eq_true, decide_eq_true_eq]
  simp only [masterLen, hw]

theorem cardDrives_iff (s : State) : cardDrives s = true ↔ s.arb.owner = .master ∧ s.master.stretched = none := by
  rw [cardDrives, Bool.and_eq_true, decide_eq_true_eq, Option.isNone_iff_eq_none]

theorem cardDrives_not {s : State} (h : s.arb.owner ≠ .master ∨ s.master.stretched ≠ none) : ¬ cardDrives s = true := fun k =>
  have ⟨h1, h2⟩ := (cardDrives_iff s).1 k
  h.elim (fun n => n h1) fun n => n h2

theorem masterWrite_drives {addr : BitVec 24} {wide : Bool} {data : BusWord} {s : State} (h : cardDrives s = true) :
    masterWrite addr wide data s = match lookupMap s.map addr.toNat .write with
      | .miss => noteMaster addr.toNat s
      | .denied => masterFault .hostError addr.toNat (noteMaster addr.toNat s)
      | .found e k => acceptWrite addr.toNat (cycleBytes addr wide data) e k (noteMaster addr.toNat s) := by
  rw [masterWrite, if_pos h, cycleBytes_eq]
  rfl

theorem addCause_hostError (a : Nat) (f : Option MasterFault) : (addCause .hostError a f).hostError = true := by
  cases f <;> simp [addCause]

/-- Settles O36: the write is noted, told, posted or held, by its lookup and the room. -/
theorem masterWriteIsPostedOrHeld : Obligations.MasterWriteIsPostedOrHeld := by
  intro s addr wide data
  refine ⟨fun h => congrArg Host.Outcome.next (if_neg (cardDrives_not h)), fun ho hs => ?_⟩
  have hdrives := (cardDrives_iff s).2 ⟨ho, hs⟩
  have hexec : exec (.masterWriteCycle addr wide data) s = .next (masterWrite addr wide data s) := rfl
  rw [hexec, masterWrite_drives hdrives]
  refine ⟨fun hl => by rw [hl]; rfl, fun hl => ?_, fun i h hl => ⟨fun hfull => ?_, fun hroom => ?_⟩⟩
  · rw [hl]
    refine ⟨_, _, rfl, rfl, addCause_hostError _ _, fun hn => ?_⟩
    have hno : (noteMaster addr.toNat s).master.owedFault = none := hn
    rw [hno]
    exact ⟨rfl, rfl, rfl⟩
  · rw [hl]
    exact congrArg Host.Outcome.next (if_neg (by exact Nat.not_lt.2 hfull))
  · refine ⟨lineAfter addr.toNat (cycleBytes addr wide data) s.master.readLine, lineAfter_follows .., ?_⟩
    rw [hl]
    by_cases hb : s.master.buffer = []
    · refine congrArg Host.Outcome.next ((if_pos (by rw [show (noteMaster addr.toNat s).master.buffer = [] from hb]; decide)).trans
        ((postWrite_first (by exact hb)).trans ?_))
      rw [if_pos hb, hb, decide_eq_true rfl]
      rfl
    · obtain ⟨hlen, hd⟩ := hroom.resolve_left hb
      refine congrArg Host.Outcome.next ((if_pos (by exact hlen)).trans ((postWrite_waits (by exact hd)).trans ?_))
      rw [if_neg hb, decide_eq_false hb, List.append_nil]
      rfl

/-! ## A card's reads (R123) -/

theorem PortWrites.eq_nil {ws : List OrderItem} (h : PortWrites ws []) : ws = [] := by
  obtain ⟨gs, hf, rfl, hne⟩ := h
  cases gs with
  | nil => rfl
  | cons g gs => exact absurd (List.append_eq_nil_iff.1 (List.flatten_cons.symm.trans hf)).1 (hne g List.mem_cons_self)

theorem masterRead_drives {addr : BitVec 24} {wide : Bool} {s : State} (h : cardDrives s = true) :
    masterRead addr wide s = match lookupMap s.map addr.toNat .read with
      | .miss => noteMaster addr.toNat s
      | .denied => masterFault .hostError addr.toNat (answerRead (allOnes (masterLen addr wide)) (noteMaster addr.toNat s))
      | .found e k => acceptRead addr.toNat (masterLen addr wide) e k (noteMaster addr.toNat s) := by
  rw [masterRead, if_pos h]
  rfl

theorem lineHit_some {a len : Nat} {s : State} {rl : ReadLine} (h : s.master.readLine = some rl) (h1 : rl.addr ≤ a)
    (h2 : a + len ≤ rl.addr + 32) : lineHit a len s = some ((rl.bytes.drop (a - rl.addr)).take len) := by
  rw [lineHit, h]
  exact if_pos (by rw [Bool.and_eq_true, decide_eq_true_eq, decide_eq_true_eq]; exact ⟨h1, h2⟩)

theorem lineHit_none {a len : Nat} {s : State}
    (h : ∀ rl, s.master.readLine = some rl → ¬ (rl.addr ≤ a ∧ a + len ≤ rl.addr + 32)) : lineHit a len s = none := by
  rw [lineHit]
  cases hr : s.master.readLine with
  | none => rfl
  | some rl =>
    refine if_neg fun k => h rl hr ?_
    rwa [Bool.and_eq_true, decide_eq_true_eq, decide_eq_true_eq] at k

theorem host_of_line (a h : Nat) : h - (a - lineBase a) = h - a % 32 := by
  have hm : a - lineBase a = a % 32 := by
    have hdef : lineBase a = a / 32 * 32 := rfl
    rw [hdef]
    omega
  rw [hm]

theorem fillServes_iff (a : Nat) (f : Fill) : fillServes a f = true ↔ f.addr = a / 32 * 32 ∧ f.ignored = false := by
  rw [fillServes, Bool.and_eq_true, decide_eq_true_eq, Bool.not_eq_true']
  rfl

theorem fillServes_eq (a : Nat) (f : Fill) : fillServes a f = (f.addr == a / 32 * 32 && !f.ignored) := rfl

/-- A read that misses decides the buffer and forms its own fill behind it, where none is outstanding (R123). -/
theorem readMiss_forms {a len i h : Nat} {s : State} {ds us : List MasterEntry} (hb : s.master.buffer = ds ++ us)
    (hd : ∀ e, e ∈ ds → e.decided = true) (hu : ∀ e, e ∈ us → e.decided = false) (hf : s.master.fill = none) :
    ∃ ws, PortWrites ws us ∧ readMiss a len i h s = { s with
      order := sendReads (s.order ++ ws ++ [.read .fill])
      master := { s.master with
        buffer := ds ++ us.map MasterEntry.decide, readLine := none, fill := some ⟨a / 32 * 32, i, h - a % 32, false⟩
        stretched := some ⟨.read len false, a, i, h, ⟨setReadyLimit s.settings, 0⟩⟩ } } := by
  obtain ⟨ws, hws, hall⟩ := decideAll_eq hd hu hb
  refine ⟨ws, hws, ?_⟩
  rw [readMiss, hall]
  simp only [hf]
  rw [formFill, stretch, host_of_line]
  rfl

/-- Where a fill is outstanding it serves the read, or is to be ignored and the read waits to form its own. -/
theorem readMiss_waits {a len i h : Nat} {s : State} {ds us : List MasterEntry} {f : Fill} (hb : s.master.buffer = ds ++ us)
    (hd : ∀ e, e ∈ ds → e.decided = true) (hu : ∀ e, e ∈ us → e.decided = false) (hf : s.master.fill = some f) :
    ∃ ws, PortWrites ws us ∧ readMiss a len i h s = { s with
      order := s.order ++ ws
      master := { s.master with
        buffer := ds ++ us.map MasterEntry.decide
        fill := some (if f.addr = a / 32 * 32 ∧ f.ignored = false then f else { f with ignored := true })
        stretched := some ⟨.read len (!(f.addr == a / 32 * 32 && !f.ignored)), a, i, h, ⟨setReadyLimit s.settings, 0⟩⟩ } } := by
  obtain ⟨ws, hws, hall⟩ := decideAll_eq hd hu hb
  refine ⟨ws, hws, ?_⟩
  rw [readMiss, hall]
  simp only [hf]
  by_cases hs : f.addr = a / 32 * 32 ∧ f.ignored = false
  · rw [if_pos ((fillServes_iff a f).2 hs), if_pos hs, ← fillServes_eq, (fillServes_iff a f).2 hs, ← hf]
    rfl
  · have hno : fillServes a f = false := by rwa [← Bool.not_eq_true, fillServes_iff]
    rw [hno, if_neg (by decide), if_neg hs, ← fillServes_eq, hno]
    rfl

/-- Settles O37: the read is noted, given FFh, answered from the line, or held for a fill. -/
theorem masterReadIsAnsweredOrFills : Obligations.MasterReadIsAnsweredOrFills := by
  intro s addr wide len hlen
  refine ⟨fun h => congrArg Host.Outcome.next (if_neg (cardDrives_not h)), fun ho hs => ?_⟩
  have hdrives := (cardDrives_iff s).2 ⟨ho, hs⟩
  have hexec : exec (.masterReadCycle addr wide) s = .next (masterRead addr wide s) := rfl
  rw [hexec, masterRead_drives hdrives, masterLen_eq, ← hlen]
  refine ⟨fun hl => by rw [hl]; rfl, fun hl => ?_, fun i h hl => ?_⟩
  · rw [hl]
    exact ⟨_, _, rfl, rfl, addCause_hostError _ _⟩
  · rw [hl]
    have hmiss (hout : ∀ rl, s.master.readLine = some rl → ¬ (rl.addr ≤ addr.toNat ∧ addr.toNat + len ≤ rl.addr + 32)) :
        acceptRead addr.toNat len i h (noteMaster addr.toNat s) = readMiss addr.toNat len i h (noteMaster addr.toNat s) := by
      rw [acceptRead, lineHit_none (by exact hout)]
    refine ⟨fun rl hr h1 h2 => ?_, fun ds us hout hb hd hu => ?_, fun hr hf hb hord => ?_, fun f hr hf hb => ?_⟩
    · refine congrArg Host.Outcome.next (?_ : acceptRead addr.toNat len i h (noteMaster addr.toNat s) = _)
      rw [acceptRead, lineHit_some (by exact hr) h1 h2]
      rfl
    · cases hf : s.master.fill with
      | none =>
        obtain ⟨ws, hws, hrun⟩ := readMiss_forms (a := addr.toNat) (len := len) (i := i) (h := h) (s := noteMaster addr.toNat s) hb hd hu hf
        exact ⟨_, ws, congrArg Host.Outcome.next ((hmiss hout).trans hrun), hws, rfl⟩
      | some f =>
        obtain ⟨ws, hws, hrun⟩ := readMiss_waits (a := addr.toNat) (len := len) (i := i) (h := h) (s := noteMaster addr.toNat s) hb hd hu hf
        exact ⟨_, ws, congrArg Host.Outcome.next ((hmiss hout).trans hrun), hws, rfl⟩
    · obtain ⟨ws, hws, hrun⟩ := readMiss_forms (a := addr.toNat) (len := len) (i := i) (h := h) (s := noteMaster addr.toNat s)
        (ds := []) (us := []) hb nofun nofun hf
      obtain rfl := hws.eq_nil
      refine congrArg Host.Outcome.next ((hmiss (by rw [hr]; nofun)).trans (hrun.trans ?_))
      have hnone : sendReads ((noteMaster addr.toNat s).order ++ [] ++ [.read .fill]) = s.order := by
        show sendReads (s.order ++ [] ++ [.read .fill]) = _
        rw [hord]
        rfl
      rw [hnone, ← hr, List.map_nil, List.append_nil, ← hb]
      rfl
    · obtain ⟨ws, hws, hrun⟩ := readMiss_waits (a := addr.toNat) (len := len) (i := i) (h := h) (s := noteMaster addr.toNat s)
        (ds := []) (us := []) hb nofun nofun hf
      obtain rfl := hws.eq_nil
      refine congrArg Host.Outcome.next ((hmiss (by rw [hr]; nofun)).trans (hrun.trans ?_))
      rw [List.append_nil, List.map_nil, List.append_nil, ← hb]
      rfl

/-! ## The port moves on (R121, R122, R124) -/

/-- The test by which a group of entries grows is that the next entry carries on where the last ends. -/
theorem carriesOn_iff {x y : MasterEntry} (hb : x.bytes ≠ []) :
    (decide (y.addr = x.addr + x.bytes.length - 1 + 1) && decide (y.entry = x.entry) &&
      decide (y.host = x.host + x.bytes.length - 1 + 1) && sameFrame y.host (x.host + x.bytes.length - 1)) = true ↔ carriesOn x y := by
  have hpos : 0 < x.bytes.length := List.length_pos_iff.2 hb
  have h1 : x.addr + x.bytes.length - 1 + 1 = x.addr + x.bytes.length := by omega
  have h2 : x.host + x.bytes.length - 1 + 1 = x.host + x.bytes.length := by omega
  rw [h1, h2, sameFrame]
  simp only [Bool.and_eq_true, decide_eq_true_eq, and_assoc]
  exact Iff.rfl

/-- A group ends where the next entry does not carry on, and each entry in it carries on from the one before. -/
theorem followers_carry (x : MasterEntry) (hx : x.bytes ≠ []) (us : List MasterEntry) (hu : ∀ e, e ∈ us → e.bytes ≠ []) :
    (∀ j e e', j < (followers x.entry (x.addr + x.bytes.length - 1) (x.host + x.bytes.length - 1) us).length →
      (x :: us)[j]? = some e → (x :: us)[j + 1]? = some e' → carriesOn e e') ∧
    ∀ e e', (x :: us)[(followers x.entry (x.addr + x.bytes.length - 1) (x.host + x.bytes.length - 1) us).length]? = some e →
      (x :: us)[(followers x.entry (x.addr + x.bytes.length - 1) (x.host + x.bytes.length - 1) us).length + 1]? = some e' →
      ¬ carriesOn e e' := by
  induction us generalizing x with
  | nil =>
    refine ⟨fun j e e' hj => absurd hj (Nat.not_lt_zero j), fun e e' _ h => ?_⟩
    cases h
  | cons y us ih =>
    have hy := hu y List.mem_cons_self
    rw [followers]
    by_cases hc : carriesOn x y
    · have hentry : y.entry = x.entry := hc.2.1
      obtain ⟨hin, hend⟩ := ih y hy fun e he => hu e (List.mem_cons_of_mem _ he)
      rw [if_pos ((carriesOn_iff hx).2 hc), List.length_cons, ← hentry]
      refine ⟨fun j e e' hj he he' => ?_, fun e e' he he' => hend e e' he he'⟩
      cases j with
      | zero =>
        obtain rfl := Option.some.inj he
        obtain rfl := Option.some.inj he'
        exact hc
      | succ j => exact hin j e e' (Nat.lt_of_succ_lt_succ hj) he he'
    · rw [if_neg fun h => hc ((carriesOn_iff hx).1 h), List.length_nil]
      refine ⟨fun j e e' hj => absurd hj (Nat.not_lt_zero j), fun e e' he he' => ?_⟩
      obtain rfl := Option.some.inj he
      obtain rfl := Option.some.inj he'
      exact hc

theorem masterDecide_empty {s : State} (h : s.master.buffer = []) : masterDecide s = s := by
  have hg : decideGroup s = s := decideGroup_done (ds := []) nofun h
  rw [masterDecide, hg, ite_self]

/-- The oldest entries are decided as one write, as many as carry on (R122). -/
theorem masterDecide_decides {s : State} {e : MasterEntry} {es : List MasterEntry} (hb : s.master.buffer = e :: es)
    (hu : ∀ x, x ∈ s.master.buffer → x.decided = false ∧ x.bytes ≠ []) :
    ∃ n, 1 ≤ n ∧ n ≤ s.master.buffer.length ∧
      (∀ j x y, j + 1 < n → s.master.buffer[j]? = some x → s.master.buffer[j + 1]? = some y → carriesOn x y) ∧
      (∀ x y, s.master.buffer[n - 1]? = some x → s.master.buffer[n]? = some y → ¬ carriesOn x y) ∧
      masterDecide s = { s with
        order := s.order ++ [.write (.master n) e.host ((s.master.buffer.take n).flatMap MasterEntry.bytes)]
        master := { s.master with
          buffer := (s.master.buffer.take n).map (fun x => { x with decided := true }) ++ s.master.buffer.drop n } } := by
  have hx (x) (hm : x ∈ e :: es) : x.decided = false ∧ x.bytes ≠ [] := hu x (by rw [hb]; exact hm)
  let g := followers e.entry (e.addr + e.bytes.length - 1) (e.host + e.bytes.length - 1) es
  have hgroup : nextGroup (e :: es) = e :: g := rfl
  have htake : e :: g = (e :: es).take (g.length + 1) := nextGroup_take (e :: es)
  have hlen : g.length + 1 ≤ (e :: es).length := by
    have h := congrArg List.length htake
    rw [List.length_take, List.length_cons] at h
    omega
  obtain ⟨hin, hend⟩ := followers_carry e (hx e List.mem_cons_self).2 es fun x hm => (hx x (List.mem_cons_of_mem _ hm)).2
  have hidle : portIdle s = true := by
    rw [portIdle, List.all_eq_true]
    intro x hm
    rw [(hu x hm).1]
    rfl
  have hdecide := decideGroup_some (s := s) (ds := []) (us := e :: es) nofun (fun x hm => (hx x hm).1) hb hgroup
  refine ⟨g.length + 1, Nat.le_add_left .., by rw [hb]; exact hlen, fun j x y hj h1 h2 => hin j x y (Nat.lt_of_succ_lt_succ hj)
    (by rw [← hb]; exact h1) (by rw [← hb]; exact h2), fun x y h1 h2 => hend x y (by rw [← hb]; exact h1) (by rw [← hb]; exact h2), ?_⟩
  rw [masterDecide, if_pos hidle, hdecide, hb, ← htake]
  rfl

theorem readSent_of_not_mem {src : ReadSource} {s : State} (h : OrderItem.read src ∉ s.order) : readSent src s = true := by
  rw [readSent, Bool.not_eq_true', ← Bool.not_eq_true, List.contains_iff_mem]
  exact h

theorem fillComplete_data {f : Fill} {bs : List Byte} {s : State} (hf : s.master.fill = some f) (hs : readSent .fill s = true)
    (hi : f.ignored = false) (hb : bs.length = 32) : fillComplete (.data bs) s = fillData32 f bs s := by
  simp only [fillComplete, hf, hs, hi, hb]
  rfl

theorem fillComplete_error {f : Fill} {s : State} (hf : s.master.fill = some f) (hs : readSent .fill s = true) (hi : f.ignored = false) :
    fillComplete .error s = fillError f s := by
  simp only [fillComplete, hf, hs, hi]
  rfl

theorem fillComplete_ignored {f : Fill} {r : ReadResult} {s : State} (hf : s.master.fill = some f) (hs : readSent .fill s = true)
    (hi : f.ignored = true) : fillComplete r s = fillIgnored s := by
  simp only [fillComplete, hf, hs, hi]
  rfl

theorem fillData32_free {f : Fill} {bs : List Byte} {s : State} (h : s.master.stretched = none) : fillData32 f bs s = { s with
    master := { s.master with fill := none, readLine := some ⟨f.addr, f.entry, f.host, bs⟩ } } := by
  simp only [fillData32, answerHeld, State.putMaster_master, h]
  rfl

theorem answerHeld_of {f : Fill} {s : State} {len a i h : Nat} {tm : ReadyTimer}
    (hs : s.master.stretched = some ⟨.read len false, a, i, h, tm⟩) (hl : a / 32 * 32 = f.addr) :
    answerHeld f s = releaseCycle (lineHit a len s) s := by
  have hbase : lineBase a = f.addr := hl
  simp only [answerHeld, hs, hbase]
  rfl

/-- The read that waits for the line is answered from it (R124). -/
theorem fillData32_answers {f : Fill} {bs : List Byte} {s : State} {len a i h : Nat} {tm : ReadyTimer}
    (hs : s.master.stretched = some ⟨.read len false, a, i, h, tm⟩) (hl : a / 32 * 32 = f.addr) (hin : a + len ≤ f.addr + 32) :
    fillData32 f bs s = { s with master := { s.master with
      fill := none, readLine := some ⟨f.addr, f.entry, f.host, bs⟩, stretched := none
      answered := some ((bs.drop (a - f.addr)).take len) } } := by
  have hle : f.addr ≤ a := hl ▸ Nat.div_mul_le_self ..
  have hhit : lineHit a len (s.putMaster { s.master with fill := none, readLine := some ⟨f.addr, f.entry, f.host, bs⟩ }) =
      some ((bs.drop (a - f.addr)).take len) := lineHit_some (rl := ⟨f.addr, f.entry, f.host, bs⟩) rfl hle hin
  rw [fillData32, answerHeld_of (by exact hs) hl, hhit]
  rfl

theorem fillError_waits {f : Fill} {s : State} {len a i h : Nat} {tm : ReadyTimer}
    (hs : s.master.stretched = some ⟨.read len false, a, i, h, tm⟩) (hl : a / 32 * 32 = f.addr) : fillError f s = { s with
      master := { s.master with
        fill := none, stretched := none, answered := some (List.replicate len 0xFF)
        owedFault := some (addCause .hostError a s.master.owedFault) } } := by
  have hbase : lineBase a = f.addr := hl
  simp only [fillError, hs, hbase]
  rfl

theorem fillIgnored_free {s : State} (h : s.master.stretched = none) : fillIgnored s = { s with master := { s.master with fill := none } } := by
  simp only [fillIgnored, h]
  rfl

/-- The read that waited to form its own fill forms it by its own lookup, which the map may have left (R118, R123, R125). -/
theorem fillIgnored_forms {s : State} {len a i h : Nat} {tm : ReadyTimer} {changed : Bool}
    (hs : s.master.stretched = some ⟨.read len true, a, i, h, tm⟩) (ho : s.order = [])
    (hc : changed = true ↔ lookupMap s.map a .read ≠ .found i h) : fillIgnored s = { s with
      master := { s.master with
        readLine := none, fill := some ⟨a / 32 * 32, i, h - a % 32, changed⟩, stretched := some ⟨.read len false, a, i, h, tm⟩ } } := by
  have hmap : (!mapStands ⟨.read len true, a, i, h, tm⟩ s) = changed := by
    rw [Bool.eq_iff_iff, hc, mapStands, Bool.not_eq_true', decide_eq_false_iff_not]
  simp only [fillIgnored, hs, if_true, hmap, formFill, host_of_line, formRead]
  show State.putOrder _ (sendReads (s.order ++ [.read .fill])) = _
  have hnone : sendReads (s.order ++ [.read .fill]) = s.order := by rw [ho]; rfl
  rw [hnone]
  rfl

/-- Settles O38: the held write, the oldest group, and the fill's completion by its mark and the read that waits. -/
theorem masterPortMovesOn : Obligations.MasterPortMovesOn := by
  refine ⟨fun s => ⟨fun h => congrArg Host.Outcome.next ?still, fun bs a i h tm hs hlen hd => ?posted⟩,
    fun s => ⟨fun h => congrArg Host.Outcome.next ?idle, fun e es hb hu => ?decides⟩,
    fun s f hf hsent => ⟨fun bs hi hb => ⟨fun hs => ?free, fun len a i h tm hs hl hin => ?answers⟩, fun hi len a i h tm hs hl => ?error,
      fun hi r => ⟨fun hs => ?ignored, fun len a i h tm changed hs ho hc => ?late⟩⟩⟩
  case still =>
    unfold postHeld
    rcases h with h | h
    · rw [h]
    · split
      · split
        · exact if_neg (Nat.not_lt.2 h)
        · rfl
      · rfl
  case posted =>
    have hrun : postHeld s = postWrite a bs i h (s.putMaster { s.master with stretched := none }) := by
      simp only [postHeld, hs]
      exact if_pos hlen
    refine ⟨_, congrArg Host.Outcome.next (hrun.trans (postWrite_waits (by exact hd))), ?_, rfl, rfl⟩
    exact putMaster_within _ s
  case idle => exact h.elim masterDecide_empty masterDecide_busy
  case decides =>
    obtain ⟨n, h1, hn, hin, hend, hrun⟩ := masterDecide_decides hb hu
    exact ⟨n, _, congrArg Host.Outcome.next hrun, h1, hn, hin, hend, rfl⟩
  case free =>
    exact congrArg Host.Outcome.next ((fillComplete_data hf (readSent_of_not_mem hsent) hi hb).trans (fillData32_free hs))
  case answers =>
    exact congrArg Host.Outcome.next ((fillComplete_data hf (readSent_of_not_mem hsent) hi hb).trans (fillData32_answers hs hl hin))
  case error =>
    exact ⟨_, _, congrArg Host.Outcome.next ((fillComplete_error hf (readSent_of_not_mem hsent) hi).trans (fillError_waits hs hl)), rfl,
      addCause_hostError _ _⟩
  case ignored =>
    exact congrArg Host.Outcome.next ((fillComplete_ignored hf (readSent_of_not_mem hsent) hi).trans (fillIgnored_free hs))
  case late =>
    exact congrArg Host.Outcome.next ((fillComplete_ignored hf (readSent_of_not_mem hsent) hi).trans (fillIgnored_forms hs ho hc))

end Sys2Proof.Machine
end

section
/-! PROOF. The issue of a host write (R103, R107): host memory takes its bytes, the order keeps its places, and what the event decides stages
no byte and loses none. -/

namespace Sys2Proof.Machine

set_option Elab.async false

/-! ## Every place behind those that stood (R103) -/

theorem Extends.putStage (c : Chan) (v : Staging) (s : State) : Extends s (s.putStage c v) := .of_within (putStage_within c v s)

theorem postWrite_extends (a : Nat) (bs : List Byte) (e h : Nat) (s : State) : Extends s (postWrite a bs e h s) :=
  Extends.after (masterDecide_extends _) (.of_within (putMaster_within ..))

theorem postHeld_extends (s : State) : Extends s (postHeld s) := by
  unfold postHeld
  split
  · split
    · exact .ite (fun _ => Extends.after (postWrite_extends ..) (.of_within (putMaster_within ..))) fun _ => .refl s
    · exact .refl s
  · exact .refl s

/-- A stopping that ends enters its destination, and tells a CHANNEL MASK that waits for it. -/
theorem endStopping_cases (c : Chan) (s : State) : endStopping c s = s ∨
    ∃ d : Dest, endStopping c s = maskCheck (waitingClear c (s.putChan c { s.chan c with state := d.state })) := by
  cases hs : (s.chan c).state with
  | stopping d =>
    by_cases hstill : stillStopping c s = true
    · exact .inl (by simp only [endStopping, hs, hstill, if_true])
    · refine .inr ⟨d, ?_⟩
      rw [Bool.not_eq_true] at hstill
      simp only [endStopping, hs, hstill]
      cases d <;> rfl
  | _ => exact .inl (by rw [endStopping, hs])

theorem waitingClear_cases (c : Chan) (s : State) : waitingClear c s = s ∨ ∃ w, waitingClear c s = clearMask c (setWork w s) := by
  unfold waitingClear
  split
  · split
    · exact .inr ⟨_, rfl⟩
    · exact .inl rfl
  all_goals exact .inl rfl

theorem endStopping_order (c : Chan) (s : State) : (endStopping c s).order = s.order := by
  rcases endStopping_cases c s with h | ⟨d, h⟩ <;> rw [h]
  rw [(maskCheck_within _).order rfl]
  rcases waitingClear_cases c (s.putChan c { s.chan c with state := d.state }) with h | ⟨w, h⟩ <;> rw [h]
  · rfl
  · rw [(clearMask_within c _).order rfl]
    rfl

theorem sourceIssued_extends (src : WriteSource) (k : Nat) (s : State) : Extends s (sourceIssued src k s) := by
  cases src
  case run c =>
    exact Extends.after (.of_within (placeChan_within true c _)) (Extends.after (.of_eq (endStopping_order c _))
      (Extends.after (.of_within (tallyWaits_within ..)) (.putStage ..)))
  case master n =>
    exact Extends.after (masterDecide_extends _) (Extends.after (postHeld_extends _)
      (Extends.after (.of_within (tallyWaits_within ..)) (.of_within (putMaster_within ..))))
  all_goals exact .refl s

theorem afterIssue_extends (src : WriteSource) (k : Nat) (s : State) : Extends s (afterIssue src k s) :=
  (weighLines_extends _).after (Extends.after (.of_within (fenceCheck_within _)) (sourceIssued_extends src k s))

/-! ## What weighing the lines is made of -/

/-- A relation that holds over an event on the interrupt unit and the sequencer, a flush demand and a drain mark holds over weighing. -/
theorem weighLines_rel {R : State → State → Prop} (htrans : ∀ s t u, R s t → R t u → R s u)
    (hw : ∀ s t, Within { irq := true, queue := true, stream := true } s t → R s t) (hf : ∀ c s, R s (flushDemand c s))
    (hd : ∀ s, R s (drainMark s)) (s : State) : R s (weighLines s) := by
  have hrefl (s : State) : R s s := hw s s (.refl _ s)
  have hirq (i : Interrupts) (s : State) : R s (s.putIrq i) := hw _ _ ((putIrq_within i s).mono (by decide))
  have hflush (d : PerChan Bool) (c : Chan) (s : State) : R s (if d.get c then flushDemand c s else s) := by
    split
    · exact hf c s
    · exact hrefl s
  have hall {f : Chan → State → State} (h : ∀ c s, R s (f c s)) (s : State) : R s (forChans f s) := by
    have hfold (l : List Chan) (s : State) : R s (l.foldl (fun x d => f d x) s) := by
      induction l generalizing s with
      | nil => exact hrefl s
      | cons d l ih => exact htrans _ _ _ (h d s) (ih _)
    exact hfold Chan.all s
  have hdrain (d : PerChan Bool) (m : Bool) (s : State) : R s (makeDrain d m s) := by
    rw [makeDrain_eq]
    split
    · exact htrans _ _ _ (hall (hflush d) s) (hd _)
    · exact hall (hflush d) s
  have hselect (s : State) : R s (pollSelect s) := by
    unfold pollSelect
    split
    · exact hw _ _ ((answerPlain_within _ s).mono (by decide))
    · exact htrans _ _ _ (hdrain _ _ s) (hirq _ _)
  have hdrop (s : State) : R s (dropDelivery s) := hw _ _ ((dropDelivery_within s).mono (by decide))
  have hrepoll (s : State) : R s (repoll s) := by
    unfold repoll
    split
    · split
      · exact hrefl s
      · exact htrans _ _ _ (hirq _ s) (hselect _)
    · split
      · exact htrans _ _ _ (hirq _ s) (hselect _)
      · exact hrefl s
  have hcandidate (s : State) : R s (selectCandidate s) := by
    unfold selectCandidate
    split
    · split
      · exact hrefl s
      · exact htrans _ _ _ (hdrain _ _ s) (hirq _ _)
    · exact hrefl s
  exact htrans _ _ _ (htrans _ _ _ (htrans _ _ _ (htrans _ _ _ (hdrop s) (hrepoll _)) (hw _ _ (answerPoll_within _))) (hcandidate _))
    (hw _ _ ((postReady_within _).mono (by decide)))

/-! ## Bytes staged (R104) -/

/-- Every channel stages in its direction, and card-to-memory bytes are neither staged nor lost. -/
structure Staged (s t : State) : Prop where
  dir : ∀ c, (t.chan c).dir = (s.chan c).dir
  count : ∀ c, (s.chan c).dir = .toMemory → stagedCount c t = stagedCount c s

theorem Staged.trans {s t u : State} (h : Staged s t) (k : Staged t u) : Staged s u where
  dir c := (k.dir c).trans (h.dir c)
  count c hc := (k.count c ((h.dir c).trans hc)).trans (h.count c hc)

theorem Staged.of_eq {s t : State} (hd : t.dma = s.dma) (hs : t.staging = s.staging) (ho : t.order = s.order) : Staged s t where
  dir c := by rw [State.chan, hd]; rfl
  count c _ := by rw [stagedCount, State.stage, hs, ho]; rfl

theorem Staged.refl (s : State) : Staged s s := .of_eq rfl rfl rfl

theorem Staged.of_within {m : Touch} {s t : State} (h : Within m s t) (hd : m.dma = false := by rfl) (hs : m.staging = false := by rfl)
    (ho : m.order = false := by rfl) : Staged s t := .of_eq (h.dma hd) (h.staging hs) (h.order ho)

theorem Staged.of_only {c : Chan} {s t : State} (h : OnlyChan c s t) (hd : (t.chan c).dir = (s.chan c).dir)
    (hn : (s.chan c).dir = .toMemory → stagedCount c t = stagedCount c s) : Staged s t where
  dir d := by
    by_cases hdc : d = c
    · rw [hdc]; exact hd
    · rw [h.chan d hdc]
  count d := by
    by_cases hdc : d = c
    · rw [hdc]; exact hn
    · exact fun _ => (h.same hdc).stagedCount

theorem flushDemand_staged (c : Chan) (s : State) : Staged s (flushDemand c s) :=
  .of_only (.flushDemand c s) (by rw [State.chan, (flushDemand_within c s).dma rfl]; rfl) fun _ => flushDemand_stagedCount c s

theorem decideGroup_staged (s : State) : Staged s (decideGroup s) where
  dir c := by rw [State.chan, (decideGroup_within s).dma rfl]; rfl
  count c _ := by
    have hbytes : decidedBytes c (decideGroup s).order = decidedBytes c s.order := by
      unfold decideGroup
      split
      · rfl
      · exact (decidedBytes_append ..).trans (Nat.add_zero _)
    rw [stagedCount, State.stage, (decideGroup_within s).staging rfl, hbytes]
    rfl

theorem decideGroups_staged (n : Nat) (s : State) : Staged s (decideGroups n s) := by
  induction n generalizing s with
  | zero => exact .refl s
  | succ n ih => exact (decideGroup_staged s).trans (ih _)

theorem drainMark_staged (s : State) : Staged s (drainMark s) := by
  unfold drainMark
  split
  · exact .refl s
  · exact (decideGroups_staged _ s).trans (.of_within (putMaster_within ..))

theorem weighLines_staged (s : State) : Staged s (weighLines s) :=
  weighLines_rel (R := Staged) (fun _ _ _ => Staged.trans) (fun _ _ h => .of_eq (h.dma rfl) (h.staging rfl) (h.order rfl)) flushDemand_staged drainMark_staged s

theorem masterDecide_staged (s : State) : Staged s (masterDecide s) := by
  unfold masterDecide
  split
  · exact decideGroup_staged s
  · exact .refl s

theorem postWrite_staged (a : Nat) (bs : List Byte) (e h : Nat) (s : State) : Staged s (postWrite a bs e h s) :=
  Staged.trans (.of_within (putMaster_within ..)) (masterDecide_staged _)

theorem postHeld_staged (s : State) : Staged s (postHeld s) := by
  unfold postHeld
  split
  · split
    · split
      · exact Staged.trans (.of_within (putMaster_within ..)) (postWrite_staged ..)
      · exact .refl s
    · exact .refl s
  · exact .refl s

/-- Unmasking sets the cursor of a FROM MEMORY channel, and stages nothing. -/
theorem clearMask_staged (c : Chan) (s : State) : Staged s (clearMask c s) := by
  by_cases hs : (s.chan c).state = .idle ∨ (s.chan c).state = .finished
  · have hdir := (s.chan c).resumes_keeps.2.1
    refine .of_only (.clearMask c s) (by rw [clearMask_chan hs]; exact hdir) fun hto => ?_
    have hstage : (clearMask c s).stage c = s.stage c := by
      rw [clearMask_stage hs, unmasking, if_neg (by rw [hdir, hto]; decide)]
      rfl
    rw [stagedCount, hstage, (clearMask_within c s).order rfl]
    rfl
  · rw [not_or] at hs
    rw [clearMask_other_state hs.1 hs.2]
    exact .refl s

theorem endStopping_staged (c : Chan) (s : State) : Staged s (endStopping c s) := by
  rcases endStopping_cases c s with h | ⟨d, h⟩ <;> rw [h]
  · exact .refl s
  have hput : Staged s (s.putChan c { s.chan c with state := d.state }) :=
    .of_only (.putChan c _ s) (by rw [State.putChan_chan, if_pos rfl]) fun _ => rfl
  refine hput.trans (Staged.trans ?_ (.of_within (maskCheck_within _)))
  rcases waitingClear_cases c (s.putChan c { s.chan c with state := d.state }) with h | ⟨w, h⟩ <;> rw [h]
  · exact .refl _
  · exact (Staged.of_within (setWork_within ..)).trans (clearMask_staged c _)

theorem placeChan_staged (b : Bool) (c : Chan) (s : State) : Staged s (placeChan b c s) := by
  refine .of_only (.placeChan b c s) (by rw [placeChan_chan]) fun _ => ?_
  rw [stagedCount, State.stage, (placeChan_within b c s).staging rfl, (placeChan_within b c s).order rfl]
  rfl

theorem sourceIssued_staged (src : WriteSource) (k : Nat) (s : State) : Staged s (sourceIssued src k s) := by
  cases src
  case run c =>
    have hput : Staged s (s.putStage c { s.stage c with marks := tallyMarks k (s.stage c).marks }) :=
      .of_only (.putStage c _ s) rfl fun _ => by
        rw [stagedCount, State.putStage_stage, if_pos rfl]
        rfl
    exact ((hput.trans (.of_within (tallyWaits_within ..))).trans (endStopping_staged c _)).trans (placeChan_staged true c _)
  case master n =>
    have hput : Staged s (s.putMaster { s.master with
        buffer := s.master.buffer.drop n, drains := tallyMarks n s.master.drains }) := .of_eq rfl rfl rfl
    exact ((hput.trans (.of_within (tallyWaits_within ..))).trans (postHeld_staged _)).trans (masterDecide_staged _)
  all_goals exact .refl s

theorem afterIssue_staged (src : WriteSource) (k : Nat) (s : State) : Staged s (afterIssue src k s) :=
  ((sourceIssued_staged src k s).trans (.of_within (fenceCheck_within _))).trans (weighLines_staged _)

/-! ### The order sorted by channels -/

theorem decidedBytes_filter_run (c d : Chan) (o : List OrderItem) :
    decidedBytes c (o.filter (OrderItem.isRunOf d)) = if d = c then decidedBytes c o else 0 := by
  induction o with
  | nil => simp [decidedBytes]
  | cons i o ih =>
    have hone : i :: o = [i] ++ o := rfl
    rw [hone, List.filter_append, decidedBytes_append, decidedBytes_append, ih]
    have hi : decidedBytes c ([i].filter (OrderItem.isRunOf d)) = if d = c then decidedBytes c [i] else 0 := by
      cases i with
      | read src => simp [OrderItem.isRunOf, decidedBytes]
      | write src h bs =>
        cases src with
        | run e =>
          by_cases hed : e = d
          · rw [List.filter_cons_of_pos (by simp [OrderItem.isRunOf, hed]), List.filter_nil, decidedBytes_run, hed]
            by_cases hdc : d = c
            · rw [if_pos hdc, if_pos hdc]
            · rw [if_neg hdc, if_neg hdc]
          · rw [List.filter_cons_of_neg (by simp [OrderItem.isRunOf, hed]), List.filter_nil, decidedBytes_run]
            by_cases hdc : d = c
            · rw [if_pos hdc, if_neg (fun k => hed (k.trans hdc.symm))]
              rfl
            · rw [if_neg hdc]
              rfl
        | _ => simp [OrderItem.isRunOf, decidedBytes]
    rw [hi]
    split <;> omega

theorem decidedBytes_filter_rest (c : Chan) (o : List OrderItem) :
    decidedBytes c (o.filter (fun i => Chan.all.all (fun d => !i.isRunOf d))) = 0 := by
  induction o with
  | nil => rfl
  | cons i o ih =>
    rw [List.filter_cons]
    split
    · rename_i hi
      rw [List.all_eq_true] at hi
      have hc := hi c (mem_Chan_all c)
      cases i with
      | read src => exact ih
      | write src h bs =>
        cases src with
        | run e =>
          have hne : e ≠ c := by simpa [OrderItem.isRunOf] using hc
          show (if e = c then bs.length else 0) + _ = 0
          rw [if_neg hne, ih]
        | _ => exact ih
    · exact ih

theorem decidedBytes_channelOrder (c : Chan) (o : List OrderItem) : decidedBytes c (channelOrder o) = decidedBytes c o := by
  simp only [channelOrder, Chan.all, List.flatMap_cons, List.flatMap_nil, List.append_nil, decidedBytes_append, decidedBytes_filter_run]
  have hrest := decidedBytes_filter_rest c o
  simp only [Chan.all] at hrest
  rw [hrest]
  cases c <;> simp

theorem inChannelOrder_staged {event : State → State} {s : State} (h : Staged s (event s)) (k : Extends s (event s)) :
    Staged s (inChannelOrder event s) := by
  obtain ⟨new, hnew⟩ := k.order
  have ho := inChannelOrder_order hnew
  refine h.trans ⟨fun c => rfl, fun c _ => ?_⟩
  rw [stagedCount, stagedCount, ho, hnew, decidedBytes_append, decidedBytes_append, decidedBytes_channelOrder]
  rfl

theorem decidedBytes_sendReads (c : Chan) (o : List OrderItem) : decidedBytes c (sendReads o) = decidedBytes c o := by
  induction o with
  | nil => rfl
  | cons i o ih => cases i <;> first | exact ih | rfl

/-! ## The master buffer -/

theorem decideGroups_length (n : Nat) (s : State) : (decideGroups n s).master.buffer.length = s.master.buffer.length := by
  induction n generalizing s with
  | zero => rfl
  | succ n ih => exact (ih _).trans (decideGroup_length s)

theorem drainMark_length (s : State) : (drainMark s).master.buffer.length = s.master.buffer.length := by
  unfold drainMark
  split
  · rfl
  · exact decideGroups_length _ s

theorem weighLines_length (s : State) : (weighLines s).master.buffer.length = s.master.buffer.length :=
  weighLines_rel (R := fun s t => t.master.buffer.length = s.master.buffer.length) (fun _ _ _ h k => k.trans h)
    (fun _ _ h => by rw [h.master rfl]) (fun c s => by rw [(flushDemand_within c s).master rfl]) drainMark_length s

theorem masterDecide_length (s : State) : (masterDecide s).master.buffer.length = s.master.buffer.length := by
  unfold masterDecide
  split
  · exact decideGroup_length s
  · rfl

theorem postHeld_none {s : State} (h : s.master.stretched = none) : postHeld s = s := by simp only [postHeld, h]

/-- An issued master write leaves the buffer, and with nothing held nothing comes in (R122). -/
theorem afterIssue_length {n k : Nat} {s : State} (h : s.master.stretched = none) :
    (afterIssue (.master n) k s).master.buffer.length = s.master.buffer.length - n := by
  rw [afterIssue, weighLines_length, (fenceCheck_within _).master rfl, sourceIssued, masterIssued, masterDecide_length, postHeld_none (by exact h)]
  exact List.length_drop

/-! ## HOST WRITE ISSUE -/

theorem sendReads_write (src : WriteSource) (a : Nat) (bs : List Byte) (o : List OrderItem) :
    sendReads (.write src a bs :: o) = .write src a bs :: o := rfl

theorem issueWrite_head {s : State} {src : WriteSource} {a : Nat} {bs : List Byte} {rest : List OrderItem}
    (h : s.order = .write src a bs :: rest) : issueWrite s =
      kickBus (inChannelOrder (afterIssue src bs.length) (hostTakes src a bs (s.putOrder (sendReads rest)))) := by
  rw [issueWrite, h, sendReads_write]

theorem issueWrite_reads {s : State} (h : ∀ i, i ∈ s.order → i.isRead = true) : issueWrite s = s := by
  have hnil : sendReads s.order = [] := List.dropWhile_eq_nil_iff.2 h
  rw [issueWrite, hnil]

theorem hostTakes_mem {src : WriteSource} (h : src ≠ .msi) (a : Nat) (bs : List Byte) (s : State) :
    (hostTakes src a bs s).host = { s.host with mem := writeBytes s.host.mem a bs } := by
  cases src <;> first | rfl | exact absurd rfl h

/-- What the issue of a write may touch before the arbiter grants. -/
abbrev Touch.taking : Touch :=
  { host := true, order := true, staging := true, dma := true, queue := true, stream := true, master := true, irq := true }

theorem kickBus_staged_eq (c : Chan) (s : State) : stagedCount c (kickBus s) = stagedCount c s := by
  rw [stagedCount, State.stage, (kickBus_within s).staging rfl, (kickBus_within s).order rfl]
  rfl

/-- Settles O33: the head of the order reaches host memory, and what follows stands behind the rest. -/
theorem issuedWriteReachesHostMemory : Obligations.IssuedWriteReachesHostMemory := by
  refine ⟨fun s src a bs rest ho hmem => ?_, fun s h => congrArg Host.Outcome.next (issueWrite_reads h)⟩
  let taken := hostTakes src a bs (s.putOrder (sendReads rest))
  have htaken : Within { host := true, order := true } s taken := (putOrder_within _ s).seq (hostTakes_within src a bs _)
  have htorder : taken.order = sendReads rest := (hostTakes_within src a bs _).order rfl
  have hevent := inChannelOrder_within (afterIssue_within src bs.length taken) rfl
  have hw := (htaken.seq hevent (k := Touch.taking)).seq (kickBus_within _) (k := { Touch.taking with arb := true, slot := true })
  have hhost : (kickBus (inChannelOrder (afterIssue src bs.length) taken)).host = taken.host :=
    ((kickBus_within _).host rfl).trans (hevent.host rfl)
  refine ⟨_, congrArg Host.Outcome.next (issueWrite_head ho), hw, fun n hsrc => ?_, fun hsrc => ?_, fun hsrc => ?_, ?_, ?_,
    fun c hsrc hd => ?_, fun n hsrc hs => ?_⟩
  · rw [hhost, hostTakes_mem hsrc]
    exact readByte_writeBytes _ _ _ _ hmem
  · rw [hhost]
    subst hsrc
    rfl
  · rw [hhost, hostTakes_mem hsrc]
    rfl
  · rw [hhost]
    by_cases hsrc : src = .msi
    · subst hsrc
      exact hmem
    · rw [hostTakes_mem hsrc]
      exact memWf_writeBytes _ _ _ hmem
  · obtain ⟨new, hnew, hsorted⟩ := inChannelOrder_new (afterIssue_extends src bs.length taken)
    rw [htorder] at hnew
    exact ⟨new, ((kickBus_within _).order rfl).trans hnew, hsorted⟩
  · have hdir : (taken.chan c).dir = .toMemory := by
      rw [State.chan, htaken.dma rfl]
      exact hd
    rw [kickBus_staged_eq, (inChannelOrder_staged (afterIssue_staged src bs.length taken) (afterIssue_extends ..)).count c hdir]
    have hcount : stagedCount c taken + bs.length = stagedCount c s := by
      rw [stagedCount, stagedCount, State.stage, htaken.staging rfl, htorder, decidedBytes_sendReads, ho, hsrc]
      simp only [decidedBytes, if_true, State.stage]
      omega
    exact hcount
  · subst hsrc
    rw [kickBus_master]
    refine (afterIssue_length (s := taken) ?_).trans ?_
    · rw [htaken.master rfl]
      exact hs
    · rw [htaken.master rfl]

end Sys2Proof.Machine
end

section
/-! PROOF. The prefetcher (R111 to R115): a read formed, what MISS stages in its stead, and a read that completes. -/

namespace Sys2Proof.Machine

set_option Elab.async false

/-! ## Bytes in unit order (R104, R113) -/

theorem range_flatMap_pair {α : Type} (f : Nat → α) (m : Nat) :
    (List.range m).flatMap (fun i => [f (2 * i), f (2 * i + 1)]) = (List.range (2 * m)).map f := by
  induction m with
  | zero => rfl
  | succ m ih =>
    rw [List.range_succ, List.flatMap_append, ih, show 2 * (m + 1) = 2 * m + 1 + 1 from rfl, List.range_succ, List.range_succ]
    simp

theorem unitAddrs_byte (decrement : Bool) (m l : Nat) :
    unitAddrs false decrement m l = (List.range m).map (fun i => if decrement then l - i else l + i) := by
  induction m generalizing l with
  | zero => rfl
  | succ m ih =>
    rw [unitAddrs, if_neg (by decide), ih, List.range_succ_eq_map, List.map_cons, List.map_map]
    cases decrement
    · refine congrArg₂ List.cons rfl (List.map_congr_left fun i _ => ?_)
      show l + 1 + i = l + (i + 1)
      omega
    · refine congrArg₂ List.cons rfl (List.map_congr_left fun i _ => ?_)
      show l - 1 - i = l - (i + 1)
      omega

theorem unitAddrs_word (decrement : Bool) (m l : Nat) : unitAddrs true decrement m l =
    (List.range m).flatMap (fun i => [if decrement then l - 2 * i else l + 2 * i, (if decrement then l - 2 * i else l + 2 * i) + 1]) := by
  induction m generalizing l with
  | zero => rfl
  | succ m ih =>
    rw [unitAddrs, if_pos rfl, ih, List.range_succ_eq_map, List.flatMap_cons, List.flatMap_map]
    have hrest (i : Nat) : (if decrement then (if decrement then l - 2 else l + 2) - 2 * i else (if decrement then l - 2 else l + 2) + 2 * i) =
        if decrement then l - 2 * (i + 1) else l + 2 * (i + 1) := by
      cases decrement
      · show l + 2 + 2 * i = l + 2 * (i + 1)
        omega
      · show l - 2 - 2 * i = l - 2 * (i + 1)
        omega
    simp only [hrest]
    cases decrement <;> rfl

theorem range_map_getD (bs : List Byte) : (List.range bs.length).map (fun i => bs.getD i 0) = bs := by
  refine List.ext_getElem (by simp) fun i h1 h2 => ?_
  rw [List.getElem_map, List.getElem_range, List.getD_eq_getElem _ _ h2]

theorem reverse_eq_map (bs : List Byte) : bs.reverse = (List.range bs.length).map (fun i => bs.getD (bs.length - 1 - i) 0) := by
  refine List.ext_getElem (by simp) fun i h1 h2 => ?_
  rw [List.length_map, List.length_range] at h2
  rw [List.getElem_reverse, List.getElem_map, List.getElem_range, List.getD_eq_getElem _ _ (by omega)]

/-- The bytes of a read of whole units, place by place. -/
theorem stagedBytes_eq (c : Chan) (decrement : Bool) (l : Nat) {bs : List Byte} {n : Nat} (hn : bs.length = n) (hu : n % c.unit = 0) :
    stagedBytes c decrement l bs = (List.range n).map (placedByte c decrement l n bs) := by
  subst hn
  cases hw : c.isWord
  · have hlen : bs.length / c.unit = bs.length := by rw [unit_of_byte hw, Nat.div_one]
    rw [stagedBytes, hlen, hw, unitAddrs_byte]
    have horder : toUnitOrder false decrement bs =
        (List.range bs.length).map (fun i => bs.getD (if decrement then bs.length - 1 - i else i) 0) := by
      cases decrement
      · exact (range_map_getD bs).symm
      · exact reverse_eq_map bs
    rw [horder, List.zip_map']
    refine List.map_congr_left fun i _ => ?_
    rw [placedByte, hw]
    cases decrement <;> rfl
  · rw [unit_of_word hw] at hu
    have heven : 2 * (bs.length / 2) = bs.length := by omega
    have haddr : unitAddrs true decrement (bs.length / 2) l =
        (List.range bs.length).map (fun i => (if decrement then l - 2 * (i / 2) else l + 2 * (i / 2)) + i % 2) := by
      rw [unitAddrs_word]
      conv_rhs => rw [← heven, ← range_flatMap_pair]
      refine List.flatMap_congr fun i _ => ?_
      have h0 : 2 * i / 2 = i := by omega
      have h1 : (2 * i + 1) / 2 = i := by omega
      have h2 : 2 * i % 2 = 0 := by omega
      have h3 : (2 * i + 1) % 2 = 1 := by omega
      rw [h0, h1, h2, h3]
      rfl
    have horder : toUnitOrder true decrement bs = (List.range bs.length).map (fun i =>
        bs.getD (if decrement then bs.length - 2 * (i / 2 + 1) + i % 2 else i) 0) := by
      cases decrement
      · exact (range_map_getD bs).symm
      · conv_rhs => rw [← heven, ← range_flatMap_pair]
        refine List.flatMap_congr fun i _ => ?_
        have h0 : 2 * i / 2 = i := by omega
        have h1 : (2 * i + 1) / 2 = i := by omega
        have h2 : 2 * i % 2 = 0 := by omega
        have h3 : (2 * i + 1) % 2 = 1 := by omega
        rw [if_pos rfl, if_pos rfl, h0, h1, h2, h3, heven]
        rfl
    rw [stagedBytes, unit_of_word hw, hw, haddr, horder, List.zip_map']
    refine List.map_congr_left fun i _ => ?_
    rw [placedByte, hw]
    cases decrement
    · have hi : 2 * (i / 2) + i % 2 = i := by omega
      show (l + 2 * (i / 2) + i % 2, _) = (l + i, _)
      rw [Nat.add_assoc, hi]
      rfl
    · rfl

/-! ## A read formed (R112) -/

/-- Of a channel that it grants the bus a grant moves the state and the block run only. -/
theorem kickBus_chan_eq (s : State) (c : Chan) : (kickBus s).chan c =
    { s.chan c with state := ((kickBus s).chan c).state, blockRun := ((kickBus s).chan c).blockRun } := by
  rcases kickBus_cases s with h | ⟨-, h | h | h | ⟨d, -, h⟩⟩ <;> rw [h]
  · rfl
  · rfl
  · unfold grantHost
    cases hx : s.xfer <;> simp only [State.putSlot_xfer, hx] <;> rfl
  · by_cases hcd : c = d
    · subst hcd
      unfold grantDma
      split
      · rw [show (grantMaster c _).chan c = _ from (State.putChan_chan ..).trans (if_pos rfl)]
        rfl
      · rw [show (grantUnits c _).chan c = _ from (State.putChan_chan ..).trans (if_pos rfl)]
        rfl
    · rw [grantDma_chan_of_ne hcd]
      rfl

theorem prefetches_of {ch : Channel} (hd : ch.dir = .fromMemory) (hm : ch.mode ≠ .master)
    (hs : ch.state ∈ [ChanState.waiting, .ready, .active, .stalled]) : prefetches ch = true := by
  simp only [List.mem_cons, List.not_mem_nil, or_false] at hs
  rcases hs with hs | hs | hs | hs <;> simp [prefetches, hd, hm, hs]

theorem nextPrefetch_of {c : Chan} {s : State} {l n : Nat} (hp : prefetches (s.chan c) = true) (hc : (s.stage c).cursor.state = .reading)
    (hl : l = legacyAddr c (s.stage c).cursor.page (s.stage c).cursor.addr)
    (hn : n = prefetchLength c (s.chan c) (s.stage c).cursor s.map (lookupMap s.map l .read))
    (hr : n + stagedCount c s + outstandingCount c s ≤ (s.chan c).limit) :
    nextPrefetch c s = some (l, lookupMap s.map l .read, n) := by
  have hroom : n ≤ prefetchRoom c s := by
    unfold prefetchRoom
    omega
  simp only [nextPrefetch, ← hl, ← hn, hp, hc, hroom, decide_true, Bool.and_true, if_true]

theorem prefetchForm_still {c : Chan} {s : State} (hc : (s.stage c).cursor.state ≠ .reading) : prefetchForm c s = s := by
  have hnone : nextPrefetch c s = none := by simp [nextPrefetch, hc]
  rw [prefetchForm, hnone]

theorem prefetchLength_found {c : Chan} {ch : Channel} {cur : Cursor} {m : Vector Entry 32} {i h : Nat} {e : Entry}
    (he : m.toList[i]? = some e) : prefetchLength c ch cur m (.found i h) = min (min ch.threshold ch.limit)
      (min (min (toFrameEnd c ch.decrement (legacyAddr c cur.page cur.addr)) ((cur.count.toNat + 1) * c.unit))
        (toEntryEnd c ch.decrement e (legacyAddr c cur.page cur.addr))) := by
  have hget : m.toList.getD i Entry.zero = e := by rw [List.getD_eq_getElem?_getD, he]; rfl
  rw [prefetchLength, hget]
  exact min_assoc ..

/-- The read that the prefetcher puts in the channel's list. -/
def formedChunk (c : Chan) (l h n : Nat) (s : State) : Chunk :=
  { id := (s.stage c).readId, addr := l, host := readHost c (s.chan c).decrement h n, len := n, data := none
    beyond := (s.stage c).cursor.passed ≠ .no }

theorem formPrefetch_eq (c : Chan) (l h n : Nat) (s : State) : formPrefetch c l h n s = { s with
    staging := s.staging.put c { s.stage c with
      readId := (s.stage c).readId + 1, chunks := (s.stage c).chunks ++ [formedChunk c l h n s]
      cursor := advanceCursor (s.chan c) (s.stage c).cursor (n / c.unit) }
    order := sendReads (s.order ++ [.read (.prefetch c (s.stage c).readId)]) } := by
  unfold formPrefetch
  dsimp only
  rw [addRead, State.putStage_stage, if_pos rfl]
  simp only [formRead, State.putOrder, State.putStage, State.stage, PerChan.put_put]
  rfl

theorem prefetchForm_found {c : Chan} {s : State} {l n i h : Nat} (hnext : nextPrefetch c s = some (l, .found i h, n)) :
    prefetchForm c s = formPrefetch c l h n s := by
  rw [prefetchForm, hnext]

theorem prefetchForm_miss {c : Chan} {s : State} {l n : Nat} (hnext : nextPrefetch c s = some (l, .miss, n)) :
    prefetchForm c s = fillPrefetch c l n .miss s := by
  rw [prefetchForm, hnext]

/-- The cursor within its pass. -/
theorem advanceCursor_within {ch : Channel} {cur : Cursor} {u : Nat} (h : u ≠ cur.count.toNat + 1) : advanceCursor ch cur u = { cur with
    addr := if ch.decrement then cur.addr - BitVec.ofNat 16 u else cur.addr + BitVec.ofNat 16 u
    count := cur.count - BitVec.ofNat 16 u } := by
  rw [advanceCursor, if_neg h, stepAddr]

/-- The cursor past its pass's last unit (R115). -/
theorem advanceCursor_past {ch : Channel} {cur : Cursor} {u : Nat} (h : u = cur.count.toNat + 1) :
    (cur.passed ≠ .no → (advanceCursor ch cur u).state = .waitingAhead) ∧
    (∀ b, cur.passed = .no → ch.nextBlock = some b → advanceCursor ch cur u = ⟨b.page, b.addr, b.count, .reading, .next⟩) ∧
    (cur.passed = .no → ch.nextBlock = none → ch.autoReload = true →
      advanceCursor ch cur u = ⟨cur.page, ch.baseAddr, ch.baseCount, .reading, .reload⟩) ∧
    (cur.passed = .no → ch.nextBlock = none → ch.autoReload = false → (advanceCursor ch cur u).state = .atEnd) := by
  rw [advanceCursor, if_pos h]
  refine ⟨fun hp => by rw [if_neg hp], fun b hp hb => ?_, fun hp hb ha => ?_, fun hp hb ha => ?_⟩
  · rw [if_pos hp, cursorAtTerminal, hb]
  · rw [if_pos hp, cursorAtTerminal, hb]
    exact if_pos ha
  · rw [if_pos hp, cursorAtTerminal, hb]
    exact congrArg Cursor.state (if_neg (by rw [ha]; decide))

/-! ### A fault recorded without stopping the channel (R94, R95) -/

theorem unitFault_goesOn {f : ChanFault} {a : Nat} {c : Chan} {s : State} (h : (s.chan c).stopOnFault = false) :
    unitFault f a c s = recordFault f a c s := by
  rw [unitFault, stopOnFault, recordFault, State.putChan_chan, if_pos rfl]
  exact if_neg (by rw [show ((s.chan c).withFault f a).stopOnFault = (s.chan c).stopOnFault from rfl, h]; decide)

/-- A fault recorded stands whatever placing the channel adds to it. -/
theorem Channel.withFault_flags (ch : Channel) (f g : ChanFault) (a : Nat) (h : ch.faults &&& f.flag = f.flag)
    (k : ch.owedFaults &&& f.flag = f.flag) : (ch.withFault g a).faults &&& f.flag = f.flag ∧ (ch.withFault g a).owedFaults &&& f.flag = f.flag := by
  have hor (x y z : BitVec 6) (hx : x &&& z = z) : (x ||| y) &&& z = z := by
    rw [BitVec.and_or_distrib_right, hx]
    ext i hi
    simp only [BitVec.getElem_or, BitVec.getElem_and]
    cases z[i] <;> simp
  exact ⟨hor _ _ _ h, hor _ _ _ k⟩

theorem Channel.withFault_own (ch : Channel) (f : ChanFault) (a : Nat) :
    (ch.withFault f a).faults &&& f.flag = f.flag ∧ (ch.withFault f a).owedFaults &&& f.flag = f.flag := by
  have hor (x z : BitVec 6) : (x ||| z) &&& z = z := by
    ext i hi
    simp only [BitVec.getElem_or, BitVec.getElem_and]
    cases x[i] <;> cases z[i] <;> rfl
  exact ⟨hor _ _, hor _ _⟩

/-- The channel after a fault is recorded and it is placed, and a free bus granted. -/
theorem faulted_chan (f : ChanFault) (a : Nat) (c : Chan) (s : State) :
    ((kickBus (placeChan true c (recordFault f a c s))).chan c).faults &&& f.flag = f.flag ∧
    ((kickBus (placeChan true c (recordFault f a c s))).chan c).owedFaults &&& f.flag = f.flag ∧
    ((s.chan c).faults = 0 → (s.chan c).firstFault = 0 →
      ((kickBus (placeChan true c (recordFault f a c s))).chan c).firstFault = BitVec.ofNat 24 a) := by
  rw [kickBus_chan_eq]
  dsimp only
  have hrec : (recordFault f a c s).chan c = (s.chan c).withFault f a := (State.putChan_chan ..).trans (if_pos rfl)
  have hown := (s.chan c).withFault_own f a
  have hfirst (h0 : (s.chan c).faults = 0) (h1 : (s.chan c).firstFault = 0) : ((s.chan c).withFault f a).firstFault = BitVec.ofNat 24 a :=
    if_pos ⟨h1, h0⟩
  cases hp : ((recordFault f a c s).chan c).state.placeable
  · rw [placeChan_of_not_placeable hp, hrec]
    exact ⟨hown.1, hown.2, hfirst⟩
  · obtain ⟨v, hv, hv' | ⟨b, hv'⟩⟩ := placeChan_cases true hp <;> rw [hv, State.putChan_chan, if_pos rfl, hv', hrec]
    · exact ⟨hown.1, hown.2, hfirst⟩
    · obtain ⟨h1, h2⟩ := Channel.withFault_flags { (s.chan c).withFault f a with state := placedState c (recordFault f a c s) } f .starved b
        hown.1 hown.2
      refine ⟨h1, h2, fun h0 h3 => ?_⟩
      have hne : ¬ ((s.chan c).withFault f a).faults = 0 := by
        rw [show ((s.chan c).withFault f a).faults = (s.chan c).faults ||| f.flag from rfl, h0]
        cases f <;> decide
      exact (if_neg fun k => hne k.2).trans (hfirst h0 h3)

/-- What the prefetcher stages in place of a read that the map refuses. -/
def filledChunk (c : Chan) (l n : Nat) (s : State) : Chunk :=
  { id := (s.stage c).readId, addr := l, host := 0, len := n
    data := some (stagedBytes c (s.chan c).decrement l (allOnes n)), beyond := (s.stage c).cursor.passed ≠ .no }

theorem fillPrefetch_eq {c : Chan} {l n : Nat} {f : ChanFault} {s : State} (h : (s.chan c).stopOnFault = false) :
    fillPrefetch c l n f s = kickBus (placeChan true c (recordFault f l c (addRead c (filledChunk c l n s) s))) := by
  rw [← unitFault_goesOn (by exact h)]
  rfl

theorem placed_stage (c d : Chan) (s : State) : (kickBus (placeChan true c s)).stage d = s.stage d := by
  rw [State.stage, (kickBus_within _).staging rfl, (placeChan_within true c _).staging rfl]
  rfl

theorem placed_order (c : Chan) (s : State) : (kickBus (placeChan true c s)).order = s.order := by
  rw [(kickBus_within _).order rfl, (placeChan_within true c _).order rfl]

/-- Settles O34: the read formed where the map has its address, and FFh with MISS where not. -/
theorem prefetchReadIsFormed : Obligations.PrefetchReadIsFormed := by
  intro s c l n hd hm hs hl hn1 hroom
  have hp := prefetches_of hd hm hs
  refine ⟨fun hc => congrArg Host.Outcome.next (prefetchForm_still hc), fun hc => ⟨fun i h e hlook he hn => ?found, fun hlook hst hn hu => ?miss⟩⟩
  case found =>
    have hlen : n = prefetchLength c (s.chan c) (s.stage c).cursor s.map (lookupMap s.map l .read) := by
      rw [hlook, prefetchLength_found he, ← hl]
      exact hn
    have hnext := nextPrefetch_of hp hc hl hlen hroom
    rw [hlook] at hnext
    have hrun := (prefetchForm_found hnext).trans (formPrefetch_eq c l h n s)
    have hstage (t : State) (ht : t = { s with
        staging := s.staging.put c { s.stage c with
          readId := (s.stage c).readId + 1, chunks := (s.stage c).chunks ++ [formedChunk c l h n s]
          cursor := advanceCursor (s.chan c) (s.stage c).cursor (n / c.unit) }
        order := sendReads (s.order ++ [.read (.prefetch c (s.stage c).readId)]) }) : t.stage c = { s.stage c with
          readId := (s.stage c).readId + 1, chunks := (s.stage c).chunks ++ [formedChunk c l h n s]
          cursor := advanceCursor (s.chan c) (s.stage c).cursor (n / c.unit) } := by
      rw [ht]
      exact (PerChan.get_put ..).trans (if_pos rfl)
    have hst := hstage _ rfl
    refine ⟨_, congrArg Host.Outcome.next hrun, ?_, fun d hdc => (PerChan.get_put ..).trans (if_neg hdc), (congrArg Staging.opened hst :),
      (congrArg Staging.readId hst :), (congrArg Staging.chunks hst :), fun ho => ?_, fun src a bs rest ho => ?_, fun hin => ?_, fun hpast => ?_⟩
    · constructor <;> intro hk <;> first | rfl | cases hk
    · show sendReads (s.order ++ _) = []
      rw [ho]
      rfl
    · show sendReads (s.order ++ _) = _
      rw [ho]
      rfl
    · exact (congrArg Staging.cursor hst :).trans (advanceCursor_within hin)
    · have hcur := congrArg Staging.cursor hst
      rw [hcur]
      exact advanceCursor_past hpast
  case miss =>
    have hlen : n = prefetchLength c (s.chan c) (s.stage c).cursor s.map (lookupMap s.map l .read) := by
      rw [hlook, prefetchLength, ← hl]
      exact hn
    have hnext := nextPrefetch_of hp hc hl hlen hroom
    rw [hlook] at hnext
    have hrun := (prefetchForm_miss hnext).trans (fillPrefetch_eq hst)
    obtain ⟨hf, ho, hfirst⟩ := faulted_chan .miss l c (addRead c (filledChunk c l n s) s)
    refine ⟨_, filledChunk c l n s, congrArg Host.Outcome.next hrun, placed_order c _, ?_, rfl, ?_, hf, ho, hfirst⟩
    · rw [placed_stage]
      exact congrArg Staging.chunks ((State.putStage_stage ..).trans (if_pos rfl))
    · exact congrArg some (stagedBytes_eq c _ l List.length_replicate hu)

/-! ## A read that completes (R113, R114) -/

theorem outstandingRead_none {c : Chan} {id : Nat} {s : State} (h : ∀ k, k ∈ (s.stage c).chunks → k.id ≠ id) :
    outstandingRead c id s = none := by
  have hnone : (s.stage c).chunks.find? (fun k => k.id = id && k.data.isNone) = none :=
    List.find?_eq_none.2 fun k hk => by simp [h k hk]
  rw [outstandingRead, hnone, ite_self]

section

variable {s : State} {c : Chan} {id : Nat} {pre post : List Chunk} {k : Chunk} (hc : (s.stage c).chunks = pre ++ k :: post)
  (hid : k.id = id) (hdata : k.data = none) (hother : ∀ k', k' ∈ pre ++ post → k'.id ≠ id)

include hc hid hdata hother

theorem outstandingRead_some (hsent : OrderItem.read (.prefetch c id) ∉ s.order) : outstandingRead c id s = some k := by
  have hpre : pre.find? (fun k => k.id = id && k.data.isNone) = none :=
    List.find?_eq_none.2 fun k' hk' => by simp [hother k' (List.mem_append_left _ hk')]
  rw [outstandingRead, readSent_of_not_mem hsent, if_pos rfl, hc, List.find?_append, hpre, Option.none_or]
  exact List.find?_cons_of_pos (by simp [hid, hdata])

theorem placeRead_stage {bs : List Byte} (hb : bs.length = k.len) (hu : k.len % c.unit = 0) : (placeRead c id bs s).stage c = { s.stage c with
    chunks := pre ++ { k with data := some ((List.range k.len).map (placedByte c (s.chan c).decrement k.addr k.len bs)) } :: post } := by
  have hkeep (l : List Chunk) (hl : ∀ k', k' ∈ l → k'.id ≠ id) : l.map (fun k' => if k'.id = id && k'.data.isNone then
      { k' with data := some (stagedBytes c (s.chan c).decrement k'.addr bs) } else k') = l := by
    refine (List.map_congr_left fun k' hk' => ?_).trans (List.map_id l)
    exact if_neg (by simp [hl k' hk'])
  rw [placeRead, State.putStage_stage, if_pos rfl]
  dsimp only
  rw [hc, List.map_append, List.map_cons, hkeep pre fun k' hk' => hother k' (List.mem_append_left _ hk'),
    hkeep post fun k' hk' => hother k' (List.mem_append_right _ hk'), if_pos (by simp [hid, hdata]), stagedBytes_eq c _ _ hb hu]

end

theorem prefetchComplete_none {c : Chan} {id : Nat} {s : State} (h : outstandingRead c id s = none) (r : ReadResult) :
    prefetchComplete c id r s = s := by
  cases r <;> simp only [prefetchComplete, h]

theorem prefetchComplete_data {c : Chan} {id : Nat} {s : State} {k : Chunk} {bs : List Byte} (h : outstandingRead c id s = some k)
    (hb : bs.length = k.len) : prefetchComplete c id (.data bs) s = kickBus (placeChan true c (placeRead c id bs s)) := by
  simp only [prefetchComplete, h, hb, if_true]

theorem prefetchComplete_error {c : Chan} {id : Nat} {s : State} {k : Chunk} (h : outstandingRead c id s = some k)
    (hs : (s.chan c).stopOnFault = false) : prefetchComplete c id .error s =
      kickBus (placeChan true c (recordFault .hostError k.addr c (placeRead c id (allOnes k.len) s))) := by
  simp only [prefetchComplete, h]
  rw [unitFault_goesOn (by exact hs)]

/-- Settles O35: the bytes placed at their legacy addresses, FFh in their stead, or nothing. -/
theorem prefetchReadCompletes : Obligations.PrefetchReadCompletes := by
  refine fun s c id => ⟨fun h r => congrArg Host.Outcome.next (prefetchComplete_none (outstandingRead_none h) r),
    fun pre k post hc hid hdata hu hother hsent => ⟨fun bs hb => ?data, fun hst => ?error⟩⟩
  case data =>
    refine ⟨_, congrArg Host.Outcome.next (prefetchComplete_data (outstandingRead_some hc hid hdata hother hsent) hb), ?_, fun d hd => ?_, ?_⟩
    · have hplace : Within { staging := true } s (placeRead c id bs s) := putStage_within ..
      exact (hplace.seq (placeChan_within true c _) (k := { staging := true, dma := true })).seq (kickBus_within _)
    · rw [placed_stage]
      exact (State.putStage_stage ..).trans (if_neg hd)
    · rw [placed_stage]
      exact placeRead_stage hc hid hdata hother hb hu
  case error =>
    obtain ⟨hf, ho, hfirst⟩ := faulted_chan .hostError k.addr c (placeRead c id (allOnes k.len) s)
    refine ⟨_, congrArg Host.Outcome.next (prefetchComplete_error (outstandingRead_some hc hid hdata hother hsent) hst), ?_, hf, ho, hfirst⟩
    rw [placed_stage]
    exact placeRead_stage hc hid hdata hother List.length_replicate hu

end Sys2Proof.Machine
end

section
/-! PROOF. SLOT RESET and PART RESET (R16, R17, R97, R173): the board's blocks as the line is ASSERTED, each channel's turn, and the tables. -/

namespace Sys2Proof.Machine

set_option Elab.async false

/-! ## The board's own blocks as the line is ASSERTED (R16, R58, R67, R128, R147) -/

theorem rotateCutOff_eq (s : State) : rotateCutOff s = { s with dma := { s.dma with order := (rotateCutOff s).dma.order } } := by
  have hrot (c : Chan) : rotateOrder c s = { s with dma := { s.dma with order := (rotateOrder c s).dma.order } } := by rw [rotateOrder_eq]
  unfold rotateCutOff
  split
  · exact hrot _
  · split
    · exact hrot _
    · rfl
  all_goals rfl

/-- The board as the line becomes ASSERTED, before the turn of the channels. -/
def lineDown (d e : Nat) (s : State) : State := invalidateLine (assertLine d e s)

theorem lineDown_eq (d e : Nat) (s : State) : lineDown d e s = { s with
    slot := s.slot.assert d e, arb := s.arb.emptied, refresh := s.refresh.paused
    dma := { s.dma with order := (rotateCutOff s).dma.order }
    master := { s.master with readLine := none, stretched := none, fill := s.master.fill.map (fun f => { f with ignored := true }) }
    irq := { s.irq with lines := PerLine.ofFn (fun l => (s.lineRec l).cleared), delivery := none } } := by
  unfold lineDown assertLine
  rw [rotateCutOff_eq]
  rfl

/-! ## One channel's turn (R77, R97) -/

theorem resetChan_only {c : Chan} {s : State} (h : workOf s = .nothing) : OnlyChan c s (resetChan c s) := by
  have henter (d : Dest) : OnlyChan c s (enterStopping c d (s.putChan c (s.chan c).masked)) :=
    (OnlyChan.putChan c _ s).trans (enterStopping_only h)
  cases hs : (s.chan c).state <;> simp only [resetChan, hs]
  all_goals first
    | exact .putChan c _ s
    | exact henter _

/-- Where a channel that is not at rest ends its unit or its stopping for. -/
def resetDest : ChanState → Dest
  | .stopping d => d
  | .idle | .finished | .waiting | .ready | .active | .stalled | .mastered => .idle

theorem resetChan_rest {c : Chan} {s : State} (h : (s.chan c).state = .idle ∨ (s.chan c).state = .finished) :
    resetChan c s = s.putChan c (s.chan c).masked := by
  rcases h with h | h <;> simp only [resetChan, h]

/-- The state in which a channel that is not at rest begins to stop, its mask taken. -/
def resetEntered (c : Chan) (s : State) : State := stopEntered c (resetDest (s.chan c).state) (s.putChan c (s.chan c).masked)

theorem resetChan_enters {c : Chan} {s : State} (hi : (s.chan c).state ≠ .idle) (hf : (s.chan c).state ≠ .finished) :
    resetChan c s = endStopping c (resetEntered c s) := by
  cases hs : (s.chan c).state
  case idle => exact absurd hs hi
  case finished => exact absurd hs hf
  all_goals simp only [resetChan, resetEntered, resetDest, hs, enterStopping_entered]

theorem resetEntered_chan (c : Chan) (s : State) : (resetEntered c s).chan c =
    { s.chan c with mask := true, soft := false, blockRun := false, state := .stopping (resetDest (s.chan c).state) } := by
  rw [resetEntered, stopEntered_chan, State.putChan_chan, if_pos rfl]
  rfl

theorem resetEntered_only (c : Chan) (s : State) : OnlyChan c s (resetEntered c s) :=
  (OnlyChan.putChan c _ s).trans (stopEntered_only c _ _)

/-- The turn of a channel that is not at rest: it stops, and is at rest again unless something is left to finish. -/
theorem resetChan_stops {c : Chan} {s : State} (hw : workOf s = .nothing) (hi : (s.chan c).state ≠ .idle) (hf : (s.chan c).state ≠ .finished) :
    resetChan c s = if stillStopping c (resetEntered c s) then resetEntered c s
      else (resetEntered c s).putChan c { s.chan c with
        mask := true, soft := false, blockRun := false, state := (resetDest (s.chan c).state).state } := by
  have hchan := resetEntered_chan c s
  rw [resetChan_enters hi hf, endStopping_of_nothing (by rw [hchan]) ((resetEntered_only c s).workOf.trans hw), hchan]

/-- A channel's record after its turn: masked, without its soft request and block run, and in a masked state. -/
theorem resetChan_chan {c : Chan} {s : State} (hw : workOf s = .nothing) :
    (resetChan c s).chan c = { s.chan c with
      mask := true, soft := false, blockRun := false, state := ((resetChan c s).chan c).state } ∧
    ((resetChan c s).chan c).state.masked = true ∧
    ((s.chan c).state = .idle ∨ (s.chan c).state = .finished → ((resetChan c s).chan c).state = (s.chan c).state) := by
  by_cases hr : (s.chan c).state = .idle ∨ (s.chan c).state = .finished
  · rw [resetChan_rest hr, State.putChan_chan, if_pos rfl]
    refine ⟨rfl, ?_, fun _ => rfl⟩
    rcases hr with h | h <;> simp only [Channel.masked, h, ChanState.masked]
  · have hnot := not_or.1 hr
    rw [resetChan_stops hw hnot.1 hnot.2]
    split
    · rw [resetEntered_chan]
      exact ⟨rfl, rfl, fun k => absurd k hr⟩
    · rw [State.putChan_chan, if_pos rfl]
      exact ⟨rfl, by cases resetDest (s.chan c).state <;> rfl, fun k => absurd k hr⟩

/-- The staging of a channel after its turn is what the flush or the discard left. -/
theorem resetChan_stage {c : Chan} {s : State} (hw : workOf s = .nothing) (hi : (s.chan c).state ≠ .idle) (hf : (s.chan c).state ≠ .finished) :
    (resetChan c s).stage c = (resetEntered c s).stage c := by
  rw [resetChan_stops hw hi hf]
  split <;> rfl

theorem resetEntered_chunks {c : Chan} {s : State} (hm : (s.chan c).mode ≠ .master) (hd : (s.chan c).dir = .fromMemory) :
    ((resetEntered c s).stage c).chunks = [] := by
  rw [resetEntered, stopEntered, State.putChan_chan, if_pos rfl, if_neg (by exact hm)]
  have hdir : (s.chan c).masked.dir = .fromMemory := hd
  rw [hdir]
  simp [discardPrefetch]

theorem resetEntered_opened {c : Chan} {s : State} (hm : (s.chan c).mode ≠ .master) (hd : (s.chan c).dir = .toMemory) :
    ((resetEntered c s).stage c).opened = none := by
  have hdir : (s.chan c).masked.dir = .toMemory := hd
  rw [resetEntered, stopEntered, State.putChan_chan, if_pos rfl, if_neg (by exact hm), hdir]
  refine flushDemand_opened_same ?_
  rw [State.putChan_chan, if_pos rfl]
  exact (stagesToMemory_iff _).2 ⟨hd, hm⟩

/-! ## SLOT RESET (R16, R17) -/

theorem assertSlotReset_eq {d e : Nat} {s : State} (hw : workOf s = .nothing) : assertSlotReset d e s =
    (forChans resetChan (lineDown d e s)).putSlot { s.slot.assert d e with clock := setClock s.settings } := by
  have hdown := lineDown_eq d e s
  have hwork : workOf (lineDown d e s) = .nothing := (workOf_of_queue (by rw [hdown])).trans hw
  obtain ⟨hwithin, -⟩ := forChans_only_within (fun c x => resetChan_only) hwork
  show applyClock (forChans resetChan (lineDown d e s)) = _
  rw [applyClock_free (by rw [hwithin.arb rfl, hdown]; rfl), hwithin.slot rfl, hwithin.settings rfl, hdown]

/-- Each channel after the event is what its own turn makes of the record and the staging that it had. -/
theorem assertSlotReset_own {d e : Nat} {s : State} (hw : workOf s = .nothing) (c : Chan) : ∃ x, workOf x = .nothing ∧
    x.arb = s.arb.emptied ∧ x.chan c = s.chan c ∧ x.stage c = s.stage c ∧ decidedBytes c x.order = decidedBytes c s.order ∧
    (assertSlotReset d e s).chan c = (resetChan c x).chan c ∧ (assertSlotReset d e s).stage c = (resetChan c x).stage c := by
  have hdown := lineDown_eq d e s
  have hwork : workOf (lineDown d e s) = .nothing := (workOf_of_queue (by rw [hdown])).trans hw
  obtain ⟨x, hx, hb, ha⟩ := forChans_own (fun c x => resetChan_only) hwork c
  rw [assertSlotReset_eq hw]
  refine ⟨x, hx, ?_, ?_, ?_, ?_, ha.chan, ha.stage⟩
  · rw [hb.within.arb rfl, hdown]
  · rw [hb.chan, hdown]; rfl
  · rw [hb.stage, hdown]; rfl
  · rw [hb.decided, hdown]

theorem assertSlotReset_within {d e : Nat} {s : State} (hw : workOf s = .nothing) : Within
    { slot := true, arb := true, refresh := true, dma := true, staging := true, order := true, master := true, irq := true } s
    (assertSlotReset d e s) := by
  have hdown := lineDown_eq d e s
  have hwork : workOf (lineDown d e s) = .nothing := (workOf_of_queue (by rw [hdown])).trans hw
  obtain ⟨hwithin, -⟩ := forChans_only_within (fun c x => resetChan_only) hwork
  have hfirst : Within { slot := true, arb := true, refresh := true, dma := true, master := true, irq := true } s (lineDown d e s) := by
    rw [hdown]
    constructor <;> intro hk <;> first | rfl | cases hk
  rw [assertSlotReset_eq hw]
  have hall : Within { slot := true, arb := true, refresh := true, dma := true, staging := true, order := true, master := true, irq := true } s
      (forChans resetChan (lineDown d e s)) := hfirst.seq hwithin
  exact hall.seq (putSlot_within _ _)

/-- What the event leaves of the board's own blocks. -/
theorem assertSlotReset_blocks {d e : Nat} {s : State} (hw : workOf s = .nothing) :
    (assertSlotReset d e s).slot = { s.slot.assert d e with clock := setClock s.settings } ∧
    (assertSlotReset d e s).arb = s.arb.emptied ∧ (assertSlotReset d e s).refresh = s.refresh.paused ∧
    (assertSlotReset d e s).master = { s.master with
      readLine := none, stretched := none, fill := s.master.fill.map (fun f => { f with ignored := true }) } ∧
    (assertSlotReset d e s).irq = { s.irq with lines := PerLine.ofFn (fun l => (s.lineRec l).cleared), delivery := none } ∧
    (assertSlotReset d e s).dma.order = (rotateCutOff s).dma.order := by
  have hdown := lineDown_eq d e s
  have hwork : workOf (lineDown d e s) = .nothing := (workOf_of_queue (by rw [hdown])).trans hw
  obtain ⟨hwithin, horder⟩ := forChans_only_within (fun c x => resetChan_only) hwork
  rw [assertSlotReset_eq hw]
  refine ⟨rfl, (hwithin.arb rfl).trans ?_, (hwithin.refresh rfl).trans ?_, (hwithin.master rfl).trans ?_, (hwithin.irq rfl).trans ?_,
    horder.trans ?_⟩ <;> rw [hdown]

/-- Settles O20: SLOT RESET is BAD REQUEST without a duration, and else asserts the line and stops every channel. -/
theorem slotResetAssertsTheLine : Obligations.SlotResetAssertsTheLine := by
  intro s x hj hk
  have hexec {u : State} (h : slotReset x.request (setPhase .active s) = u) : exec .slotReset s = .next u :=
    congrArg Host.Outcome.next ((whenTaken_taken slotReset hj.taken (by simp [ofKind, hk])).trans h)
  refine ⟨fun h0 => ⟨_, hexec (if_pos h0), endRequest_of_taken .badRequest 0 zeros8 hj.taken⟩, fun hd => ?_⟩
  have hw := hj.workOf .active
  have hqueue : (setPhase .active s).queue = { s.queue with exec := some { x with phase := .active } } := by rw [setPhase_of hj.1]
  have hwithin := assertSlotReset_within (d := resetDuration x.request) (e := resetSettle x.request) hw
  obtain ⟨hslot, harb, hrefresh, hmaster, hirq, -⟩ :=
    assertSlotReset_blocks (d := resetDuration x.request) (e := resetSettle x.request) hw
  have hown := assertSlotReset_own (d := resetDuration x.request) (e := resetSettle x.request) hw
  have hsame : setPhase .active s = { s with queue := { s.queue with exec := some { x with phase := .active } } } := setPhase_of hj.1
  refine ⟨_, hexec (if_neg hd), (setPhase_within .active s).seq hwithin, (hwithin.queue rfl).trans hqueue, ?_, ?_, ?_, fun c => ?_,
    fun c hc => ?_, fun l => ?_, ?_, ?_, ?_⟩
  · rw [hslot, hsame]; rfl
  · rw [harb, hsame]; rfl
  · rw [hrefresh, hsame]; rfl
  · obtain ⟨y, hy, -, hyc, -, -, hchan, -⟩ := hown c
    obtain ⟨hrec, hmasked, hrest⟩ := resetChan_chan (c := c) hy
    rw [← hchan, hyc, show (setPhase .active s).chan c = s.chan c by rw [hsame]; rfl] at hrec
    rw [← hchan] at hmasked hrest
    rw [hyc, show (setPhase .active s).chan c = s.chan c by rw [hsame]; rfl] at hrest
    have hmask := (congrArg Channel.mask hrec :)
    have hsoft := (congrArg Channel.soft hrec :)
    have hrun := (congrArg Channel.blockRun hrec :)
    refine ⟨hmask, hsoft, hrun, hmasked, hrest, ?_⟩
    rw [hmask, hsoft, hrun]
    exact hrec
  · obtain ⟨y, hy, -, hyc, -, -, -, hstage⟩ := hown c
    have hyc' : y.chan c = s.chan c := hyc.trans (by rw [hsame]; rfl)
    have hst := resetChan_stage (c := c) hy (by rw [hyc']; rcases hc with h | h <;> rw [h] <;> nofun)
      (by rw [hyc']; rcases hc with h | h <;> rw [h] <;> nofun)
    rw [hstage, hst]
    exact ⟨fun hm hdir => resetEntered_chunks (by rw [hyc']; exact hm) (by rw [hyc']; exact hdir),
      fun hm hdir => resetEntered_opened (by rw [hyc']; exact hm) (by rw [hyc']; exact hdir)⟩
  · rw [State.lineRec, hirq, PerLine.get_ofFn, hsame]
    rfl
  · rw [hirq]
  · rw [hirq, hsame]
  · rw [hmaster, hsame]

/-! ## PART RESET (R96, R110, R128, R173) -/

theorem decidedBytes_notRun (c : Chan) (o : List OrderItem) : decidedBytes c (o.filter OrderItem.notRun) = 0 := by
  induction o with
  | nil => rfl
  | cons i o ih =>
    cases i with
    | read src => exact ih
    | write src h bs => cases src <;> exact ih

theorem notRun_eq : OrderItem.notRun = fun i => match i with
    | .write (.run _) _ _ => false
    | _ => true := by
  funext i
  cases i with
  | read src => rfl
  | write src h bs => cases src <;> rfl

theorem ownsBus_iff (c : Chan) (s : State) : ownsBus c s = true ↔ OwnsBus s c := by
  simp only [ownsBus, OwnsBus, Bool.or_eq_true, Bool.and_eq_true, decide_eq_true_eq]

theorem clearPart_chan (c : Chan) (s : State) : (clearPart s).chan c = partResetChan s c := PerChan.get_ofFn _ c

theorem clearPart_stage (c : Chan) (s : State) : (clearPart s).stage c = (s.stage c).emptied := PerChan.get_ofFn _ c

theorem clearPart_decided (c : Chan) (s : State) : decidedBytes c (clearPart s).order = 0 :=
  (decidedBytes_sendReads c _).trans (decidedBytes_notRun c s.order)

theorem partResetChan_eq (s : State) (c : Chan) : partResetChan s c = { Channel.reset with
    state := if ownsBus c s then .stopping .idle else .idle } := by
  unfold partResetChan
  split <;> rfl

/-- What PART RESET returns to reset values and keeps, whatever the queue. -/
theorem clearPart_cleared (s : State) (q q' : Queue) : PartCleared s { clearPart { s with queue := q } with queue := q' } where
  tables := ⟨rfl, rfl, rfl⟩
  staging c := by
    have hst : State.stage { clearPart { s with queue := q } with queue := q' } c = (s.stage c).emptied := clearPart_stage c { s with queue := q }
    rw [hst]
    exact ⟨rfl, rfl, rfl, rfl⟩
  lines l := by cases l <;> rfl
  selection := ⟨rfl, rfl⟩
  master := by
    refine ⟨rfl, rfl, rfl, rfl, rfl, rfl, ?_⟩
    show releasedAnswer s.master = _
    unfold releasedAnswer
    cases s.master.stretched with
    | none => rfl
    | some x => cases x.kind <;> rfl
  order := congrArg (fun p => (s.order.filter p).dropWhile OrderItem.isRead) notRun_eq
  dmaOrder := .inl rfl
  channels c := by
    have hc : State.chan { clearPart { s with queue := q } with queue := q' } c = partResetChan { s with queue := q } c := clearPart_chan c _
    rw [hc, partResetChan_eq]
    rfl
  keeps := ⟨rfl, rfl, rfl, rfl, rfl, rfl, rfl, rfl, rfl, rfl, rfl⟩

/-! ## PART RESET with its pulse flag -/

/-- A flush with nothing staged has nothing to do (R108). -/
theorem flushDemand_nothing {c : Chan} {s : State} (ho : (s.stage c).opened = none) (hn : stagedCount c s = 0) : flushDemand c s = s := by
  have hclose := closeRun_none ho
  unfold flushDemand
  dsimp only
  rw [hclose, if_pos hn, ite_self]

/-- A channel record that PART RESET has cleared, its unit or tenure perhaps still to end. -/
def IsCleared (ch : Channel) : Prop := ch = Channel.reset ∨ ch = { Channel.reset with state := .stopping .idle }

/-- The turn of a channel cleared in the same event, with the bus empty and nothing staged: it is at its reset value. -/
theorem resetChan_cleared {c : Chan} {s : State} (hw : workOf s = .nothing) (hc : IsCleared (s.chan c)) (hf : s.arb.owner = .free)
    (hm : s.arb.masterChan = none) (ho : (s.stage c).opened = none) (hn : stagedCount c s = 0) :
    resetChan c s = s.putChan c Channel.reset := by
  rcases hc with hc | hc
  · rw [resetChan_rest (.inl (by rw [hc]; rfl)), hc]
    rfl
  · have hent : resetEntered c s = s.putChan c { Channel.reset with state := .stopping .idle } := by
      rw [resetEntered, stopEntered, State.putChan_chan, if_pos rfl, hc, putChan_putChan]
      exact flushDemand_nothing (c := c) (s := s.putChan c { Channel.reset with state := .stopping .idle }) ho hn
    have hstill : stillStopping c (resetEntered c s) = false := by
      have hcount : stagedCount c (resetEntered c s) = 0 := by rw [hent]; exact hn
      rw [stillStopping, (resetEntered_only c s).arb, hf, hm, hcount]
      simp
    rw [resetChan_stops hw (by rw [hc]; nofun) (by rw [hc]; nofun), hstill, if_neg (by decide), hent, putChan_putChan, hc]
    rfl

/-- The turns of channels cleared in the same event leave the staging and the order as they are. -/
structure AllCleared (s t : State) : Prop where
  work : workOf t = .nothing
  free : t.arb.owner = .free
  masterChan : t.arb.masterChan = none
  chan : ∀ c, IsCleared (t.chan c)
  staging : t.staging = s.staging
  order : t.order = s.order

theorem AllCleared.turns {s t : State} (h : AllCleared s t) (hs : ∀ c, (s.stage c).opened = none ∧ stagedCount c s = 0) :
    AllCleared s (forChans resetChan t) := by
  refine forChans_induction (P := AllCleared s) (fun c x hx => ?_) h
  have hst (d : Chan) : x.stage d = s.stage d := congrArg (fun g => g.get d) hx.staging
  have hn : stagedCount c x = stagedCount c s := by rw [stagedCount, hst, hx.order]; rfl
  rw [resetChan_cleared hx.work (hx.chan c) hx.free hx.masterChan (by rw [hst]; exact (hs c).1) (hn.trans (hs c).2)]
  refine ⟨hx.work, hx.free, hx.masterChan, fun d => ?_, hx.staging, hx.order⟩
  rw [State.putChan_chan]
  split
  · exact .inl rfl
  · exact hx.chan d

theorem clearPart_stagedCount (c : Chan) (s : State) : ((clearPart s).stage c).opened = none ∧ stagedCount c (clearPart s) = 0 := by
  rw [stagedCount, clearPart_decided, clearPart_stage]
  exact ⟨rfl, rfl⟩

section

variable {d e : Nat} {s : State} (hw : workOf s = .nothing)

include hw

theorem assertSlotReset_cleared_order : (assertSlotReset d e (clearPart s)).order = (clearPart s).order ∧
    (assertSlotReset d e (clearPart s)).staging = (clearPart s).staging := by
  have hdown := lineDown_eq d e (clearPart s)
  have hall : AllCleared (clearPart s) (lineDown d e (clearPart s)) := by
    rw [hdown]
    refine ⟨hw, rfl, rfl, fun c => ?_, rfl, rfl⟩
    show IsCleared ((clearPart s).chan c)
    rw [clearPart_chan, partResetChan]
    split
    · exact .inr rfl
    · exact .inl rfl
  have hturns := hall.turns (fun c => clearPart_stagedCount c s)
  rw [assertSlotReset_eq (s := clearPart s) hw]
  exact ⟨hturns.order, hturns.staging⟩

theorem assertSlotReset_cleared_chan (c : Chan) : (assertSlotReset d e (clearPart s)).chan c = Channel.reset := by
  obtain ⟨x, hx, harb, hchan, hstage, hdec, hc, -⟩ := assertSlotReset_own (d := d) (e := e) (s := clearPart s) hw c
  obtain ⟨ho, hn⟩ := clearPart_stagedCount c s
  have hcleared : IsCleared (x.chan c) := by
    rw [hchan, clearPart_chan, partResetChan]
    split
    · exact .inr rfl
    · exact .inl rfl
  have hcount : stagedCount c x = stagedCount c (clearPart s) := by rw [stagedCount, hstage, hdec]; rfl
  rw [hc, resetChan_cleared hx hcleared (by rw [harb]; rfl) (by rw [harb]; rfl) (by rw [hstage]; exact ho) (hcount.trans hn),
    State.putChan_chan, if_pos rfl]

end

theorem rotateCutOff_order (s : State) : (rotateCutOff s).dma.order = s.dma.order ∨ setRotating s.settings = true := by
  have hrot (c : Chan) : (rotateOrder c s).dma.order = s.dma.order ∨ setRotating s.settings = true := by
    rw [rotateOrder_eq]
    cases h : setRotating s.settings
    · exact .inl rfl
    · exact .inr rfl
  unfold rotateCutOff
  split
  · exact hrot _
  · split
    · exact hrot _
    · exact .inl rfl
  all_goals exact .inl rfl

/-- The SLOT RESET of the same event takes back nothing of what PART RESET has cleared. -/
theorem PartCleared.asserted {d e : Nat} {s : State} {q : Queue} (hw : workOf { s with queue := q } = .nothing) :
    PartCleared s (assertSlotReset d e (clearPart { s with queue := q })) := by
  have hcl := clearPart_cleared s q q
  have hwithin := assertSlotReset_within (d := d) (e := e) (s := clearPart { s with queue := q }) hw
  obtain ⟨hslot, -, hrefresh, hmaster, hirq, hdma⟩ := assertSlotReset_blocks (d := d) (e := e) (s := clearPart { s with queue := q }) hw
  obtain ⟨horder, hstaging⟩ := assertSlotReset_cleared_order (d := d) (e := e) hw
  have hchan := assertSlotReset_cleared_chan (d := d) (e := e) hw
  obtain ⟨-, -, hfault, hdrains, hbuffer, hfill, hanswered⟩ := hcl.master
  refine ⟨?_, fun c => ?_, fun l => ?_, ?_, ?_, horder.trans hcl.order, ?_, fun c => ?_, ?_⟩
  · rw [hwithin.windows rfl, hwithin.map rfl, hwithin.segments rfl]
    exact hcl.tables
  · rw [State.stage, hstaging]
    exact hcl.staging c
  · rw [State.lineRec, hirq, PerLine.get_ofFn]
    cases l <;> rfl
  · rw [hirq]
    exact ⟨rfl, rfl⟩
  · rw [hmaster]
    refine ⟨rfl, rfl, hfault, hdrains, hbuffer, ?_, hanswered⟩
    show (s.master.fill.map _).map _ = _
    cases s.master.fill <;> rfl
  · rw [hdma]
    exact rotateCutOff_order (clearPart { s with queue := q })
  · rw [hchan]
    rfl
  · rw [hwithin.settings rfl, hwithin.ret rfl, hwithin.intake rfl, hwithin.pins rfl, hwithin.host rfl, hwithin.xfer rfl, hslot, hrefresh]
    exact hcl.keeps

/-- Settles O22: PART RESET is BAD REQUEST for a pulse without a duration, and else clears the tables, with the line asserted for a pulse. -/
theorem partResetClearsTheTables : Obligations.PartResetClearsTheTables := by
  intro s x hj hk
  have hsame : setPhase .active s = { s with queue := { s.queue with exec := some { x with phase := .active } } } := setPhase_of hj.1
  have hexec {u : State} (h : partReset x.request (setPhase .active s) = u) : exec .partReset s = .next u :=
    congrArg Host.Outcome.next ((whenTaken_taken partReset hj.taken (by simp [ofKind, hk])).trans h)
  refine ⟨fun hp h0 => ⟨_, hexec ?bad, endRequest_of_taken .badRequest 0 zeros8 hj.taken⟩, fun hp => ?plain, fun hp hd => ?pulse⟩
  case bad =>
    rw [partReset, if_pos hp]
    exact if_pos h0
  case plain =>
    have hcl := clearPart_cleared s { s.queue with exec := some { x with phase := .active } } s.queue
    rw [← hsame] at hcl
    refine ⟨_, _, hexec (if_neg (by rw [hp]; decide)), endRequest_of_takenThen .ok 0 zeros8 hj.taken rfl, hcl, rfl, ?_, ?_, ?_, rfl, fun c => ?_⟩
    · rw [hsame]; rfl
    · rw [hsame]; rfl
    · rw [hsame]; rfl
    · have hc : State.chan { clearPart (setPhase .active s) with queue := s.queue } c = partResetChan (setPhase .active s) c := clearPart_chan c _
      have howns : ownsBus c (setPhase .active s) = true ↔ OwnsBus s c := by
        rw [hsame]
        exact ownsBus_iff c s
      rw [hc, partResetChan_eq]
      exact ⟨fun h => if_neg fun k => h (howns.1 k), fun h => if_pos (howns.2 h)⟩
  case pulse =>
    have hw := hj.workOf .active
    rw [hsame] at hw
    obtain ⟨hslot, harb, hrefresh, -⟩ := assertSlotReset_blocks (d := resetDuration x.request) (e := resetSettle x.request)
      (s := clearPart { s with queue := { s.queue with exec := some { x with phase := .active } } }) hw
    have hwithin := assertSlotReset_within (d := resetDuration x.request) (e := resetSettle x.request)
      (s := clearPart { s with queue := { s.queue with exec := some { x with phase := .active } } }) hw
    refine ⟨_, hexec ((if_pos hp).trans ((if_neg hd).trans (by rw [hsame]))), .asserted hw, hwithin.queue rfl, ?_, ?_, ?_, ?_, ?_, fun c => ?_⟩
    · rw [hslot]; rfl
    · rw [hslot]; rfl
    · rw [hslot]; rfl
    · rw [harb]; rfl
    · rw [hrefresh]; rfl
    · rw [assertSlotReset_cleared_chan hw]; rfl

end Sys2Proof.Machine
end

section
/-! PROOF. The end of a DMA tenure at a unit boundary (R60, R61, R83), and the card check line (R14, R15). -/

namespace Sys2Proof.Machine

set_option Elab.async false

/-! ## STARVED told on the way (R72, R94) -/

/-- Two records hold the same faults. -/
def SameFaults (a b : Channel) : Prop :=
  b.faults = a.faults ∧ b.firstFault = a.firstFault ∧ b.owedFaults = a.owedFaults ∧ b.owedAddr = a.owedAddr

theorem SameFaults.refl (a : Channel) : SameFaults a a := ⟨rfl, rfl, rfl, rfl⟩

theorem SameFaults.of_eq {a b : Channel} (h : b = a) : SameFaults a b := h ▸ .refl a

theorem SameFaults.trans {a b d : Channel} (h : SameFaults a b) (k : SameFaults b d) : SameFaults a d :=
  ⟨k.1.trans h.1, k.2.1.trans h.2.1, k.2.2.1.trans h.2.2.1, k.2.2.2.trans h.2.2.2⟩

theorem SameFaults.withFault {a b : Channel} (h : SameFaults a b) (f : ChanFault) (n : Nat) :
    SameFaults (a.withFault f n) (b.withFault f n) := by
  obtain ⟨hf, hff, ho, ha⟩ := h
  simp only [SameFaults, Channel.withFault, hf, hff, ho, ha, and_self]

/-- The channel's faults as they were, or with STARVED told as well, which only a FROM MEMORY channel tells. -/
def MayStarve (a b : Channel) : Prop := SameFaults a b ∨ (a.dir = .fromMemory ∧ ∃ n, SameFaults (a.withFault .starved n) b)

theorem MayStarve.refl (a : Channel) : MayStarve a a := .inl (.refl a)

theorem MayStarve.same {a b : Channel} (h : MayStarve a b) (hd : a.dir ≠ .fromMemory) : SameFaults a b :=
  h.resolve_right fun k => hd k.1

theorem MayStarve.before {a b d : Channel} (hd : b.dir = a.dir) (h : SameFaults a b) (k : MayStarve b d) : MayStarve a d := by
  rcases k with k | ⟨hb, n, k⟩
  · exact .inl (h.trans k)
  · exact .inr ⟨hd.symm.trans hb, n, (h.withFault .starved n).trans k⟩

theorem MayStarve.after {a b d : Channel} (h : MayStarve a b) (k : SameFaults b d) : MayStarve a d := by
  rcases h with h | ⟨hd, n, h⟩
  · exact .inl (h.trans k)
  · exact .inr ⟨hd, n, h.trans k⟩

/-- A flag set before stays set, and owed. -/
theorem MayStarve.keeps_flag {a b : Channel} (h : MayStarve a b) {i : Nat} :
    (a.faults.getLsbD i = true → b.faults.getLsbD i = true) ∧ (a.owedFaults.getLsbD i = true → b.owedFaults.getLsbD i = true) := by
  rcases h with ⟨hf, -, ho, -⟩ | ⟨-, n, hf, -, ho, -⟩ <;> rw [hf, ho]
  · exact ⟨id, id⟩
  · exact ⟨fun k => by simp [Channel.withFault, k], fun k => by simp [Channel.withFault, k]⟩

/-- The first fault address stays where a fault was recorded. -/
theorem MayStarve.keeps_first {a b : Channel} (h : MayStarve a b) (hf : a.faults ≠ 0) : b.firstFault = a.firstFault := by
  rcases h with ⟨-, hb, -⟩ | ⟨-, n, -, hb, -⟩ <;> rw [hb]
  exact if_neg fun k => hf k.2

theorem placeChan_starves (b : Bool) (c : Chan) (s : State) : MayStarve (s.chan c) ((placeChan b c s).chan c) := by
  cases hp : (s.chan c).state.placeable
  · rw [placeChan_of_not_placeable hp]
    exact .refl _
  · rw [placeChan, if_pos hp]
    dsimp only
    split
    · next h =>
      simp only [Bool.and_eq_true, decide_eq_true_eq] at h
      rw [recordFault_putChan, State.putChan_chan, if_pos rfl]
      exact .inr ⟨h.2, _, .refl _⟩
    · rw [State.putChan_chan, if_pos rfl]
      exact .inl (.refl _)

theorem causing_faults (event : State → State) (s : State) (c : Chan) : SameFaults ((event s).chan c) ((causing event s).chan c) := by
  rw [causing_chan_eq]
  exact .refl _

theorem unmask_starves (c : Chan) (ch : Channel) (s : State) : MayStarve ch ((unmask c ch s).chan c) := by
  have h := placeChan_starves true c (unmasking c ch s)
  rw [unmasking_chan] at h
  exact MayStarve.before (b := { ch with mask := false, state := .waiting }) rfl (.refl _) h

theorem Channel.resumes_faults (ch : Channel) : SameFaults ch ch.resumes := by
  unfold Channel.resumes
  split
  · unfold Channel.loadCounts
    split <;> exact .refl _
  · exact .refl _

theorem clearMask_starves (c : Chan) (s : State) : MayStarve (s.chan c) ((clearMask c s).chan c) := by
  by_cases h : (s.chan c).state = .idle ∨ (s.chan c).state = .finished
  · rw [clearMask_resumes h]
    exact MayStarve.after (.before (s.chan c).resumes_keeps.2.1 (s.chan c).resumes_faults (unmask_starves c _ s)) (causing_faults ..)
  · obtain ⟨hi, hf⟩ := not_or.1 h
    rw [clearMask_other_state hi hf]
    exact .refl _

/-- A waiting clear unmasks the channel, or nothing happens to its record. -/
theorem endStopping_starves (c : Chan) (s : State) : MayStarve (s.chan c) ((endStopping c s).chan c) := by
  rcases endStopping_cases c s with h | ⟨d, h⟩ <;> rw [h]
  · exact .refl _
  have hcheck (x : State) : (maskCheck x).chan c = x.chan c := congrArg (fun g => g.chans.get c) ((maskCheck_within x).dma rfl)
  have hput : SameFaults (s.chan c) ((s.putChan c { s.chan c with state := d.state }).chan c) := by
    rw [State.putChan_chan, if_pos rfl]
    exact .refl _
  rw [hcheck]
  rcases waitingClear_cases c (s.putChan c { s.chan c with state := d.state }) with h | ⟨w, h⟩ <;> rw [h]
  · exact .inl hput
  · refine .before ?_ hput (clearMask_starves c (setWork w (s.putChan c { s.chan c with state := d.state })))
    exact (congrArg Channel.dir ((State.putChan_chan s c c { s.chan c with state := d.state }).trans (if_pos rfl)) :)

theorem enterStopping_starves (c : Chan) (d : Dest) (s : State) : MayStarve (s.chan c) ((enterStopping c d s).chan c) := by
  have h := endStopping_starves c (stopEntered c d s)
  rw [stopEntered_chan] at h
  exact .before (b := { s.chan c with mask := true, state := .stopping d }) rfl (.refl _) h

/-! ## The end of a tenure at a unit boundary (R60, R61, R82, R83) -/

/-- The bus is given back at a unit boundary: host turn by R61, and the order turned by R82. -/
def boundary (c : Chan) (s : State) : State := rotateOrder c (freeBus (turnAtBoundary s))

theorem boundary_eq (c : Chan) (s : State) : boundary c s = { s with
    arb := { s.arb with owner := .free, hostTurn := s.arb.hostTurn || limitHolds s }
    slot := { s.slot with cycle := none, readyTimer := none, lastAddr := none }
    dma := { s.dma with order := if setRotating s.settings then rotateAfter c else s.dma.order } } := rotateOrder_eq c _

theorem boundary_chan (c d : Chan) (s : State) : (boundary c s).chan d = s.chan d := rotateOrder_chan c d _

theorem boundary_within (c : Chan) (s : State) : Within { arb := true, slot := true, dma := true } s (boundary c s) := by
  rw [boundary_eq]
  constructor <;> intro hk <;> first | rfl | cases hk

theorem endDmaTenure_stopping {c : Chan} {d : Dest} {s : State} (h : (s.chan c).state = .stopping d) :
    endDmaTenure c s = enterStopping c d (boundary c s) := by
  have hs : ((rotateOrder c (freeBus (turnAtBoundary s))).chan c).state = .stopping d :=
    (congrArg Channel.state (boundary_chan c c s)).trans h
  simp only [endDmaTenure, hs]
  rfl

/-- A channel that keeps the mask clear waits again, and is placed. -/
theorem endDmaTenure_active {c : Chan} {s : State} (h : (s.chan c).state = .active) :
    endDmaTenure c s = placeChan true c ((boundary c s).putChan c { s.chan c with state := .waiting }) := by
  have hc := boundary_chan c c s
  have hs : ((rotateOrder c (freeBus (turnAtBoundary s))).chan c).state = .active := (congrArg Channel.state hc).trans h
  simp only [endDmaTenure, hs]
  rw [← hc]
  rfl

/-- What the end of a tenure leaves of the arbiter, the cycle engine, and the blocks that no stopping touches. -/
theorem endDmaTenure_bus {c : Chan} {s : State} (h : (s.chan c).state = .active ∨ ∃ d, (s.chan c).state = .stopping d) :
    (endDmaTenure c s).arb = { s.arb with owner := .free, hostTurn := s.arb.hostTurn || limitHolds s } ∧
    (endDmaTenure c s).slot = { s.slot with cycle := none, readyTimer := none, lastAddr := none } ∧
    (endDmaTenure c s).refresh = s.refresh ∧ (endDmaTenure c s).xfer = s.xfer ∧ (endDmaTenure c s).settings = s.settings := by
  have hb := boundary_eq c s
  rcases h with h | ⟨d, h⟩
  · have hw := placeChan_within true c ((boundary c s).putChan c { s.chan c with state := .waiting })
    rw [endDmaTenure_active h, hw.arb rfl, hw.slot rfl, hw.refresh rfl, hw.xfer rfl, hw.settings rfl, hb]
    exact ⟨rfl, rfl, rfl, rfl, rfl⟩
  · have hw := enterStopping_within c d (boundary c s)
    rw [endDmaTenure_stopping h, hw.arb rfl, hw.slot rfl, hw.refresh rfl, hw.xfer rfl, hw.settings rfl, hb]
    exact ⟨rfl, rfl, rfl, rfl, rfl⟩

theorem endDmaTenure_starves {c : Chan} {s : State} (h : (s.chan c).state = .active ∨ ∃ d, (s.chan c).state = .stopping d) :
    MayStarve (s.chan c) ((endDmaTenure c s).chan c) := by
  rcases h with h | ⟨d, h⟩
  · have hp := placeChan_starves true c ((boundary c s).putChan c { s.chan c with state := .waiting })
    rw [State.putChan_chan, if_pos rfl] at hp
    rw [endDmaTenure_active h]
    exact .before (b := { s.chan c with state := .waiting }) rfl (.refl _) hp
  · rw [endDmaTenure_stopping h, ← boundary_chan c c s]
    exact enterStopping_starves c d _

/-- With nothing in flight for a mask, a channel that stops stays masked. -/
theorem enterStopping_mask {c : Chan} {d : Dest} {s : State} (hw : workOf s = .nothing) : ((enterStopping c d s).chan c).mask = true := by
  have hent := stopEntered_chan c d s
  rw [enterStopping_entered, endStopping_of_nothing (by rw [hent]) ((stopEntered_only c d s).workOf.trans hw)]
  split
  · rw [hent]
  · rw [State.putChan_chan, if_pos rfl, hent]

theorem kickBus_faults (s : State) (c : Chan) : SameFaults (s.chan c) ((kickBus s).chan c) := by
  rw [kickBus_chan_eq]
  exact .refl _

theorem kickBus_mask (s : State) (c : Chan) : ((kickBus s).chan c).mask = (s.chan c).mask := by rw [kickBus_chan_eq]

/-- The bus given back goes to the host path where it waits with host turn, and no refresh is owed. -/
theorem kickBus_hostTurn {s : State} {x : Xfer} (hf : s.arb.owner = .free) (hl : s.slot.line ≠ .asserted) (hr : s.refresh.owed = 0)
    (ht : s.arb.hostTurn = true) (hh : s.arb.hostWaiting = true) (hx : s.xfer = some x) :
    (kickBus s).arb = { s.arb with owner := .hostPath, hostWaiting := false, hostTurn := false, dmaCount := 0 } ∧
    (kickBus s).slot.latch = s.slot.latch := by
  rw [kickBus_grant hf hl, grant_hostTurn (s := s.putSlot { s.slot with clock := setClock s.settings }) hr ht hh,
    grantHost_of_xfer (by exact hx)]
  exact ⟨rfl, rfl⟩

/-! ## The card check line (R14, R15) -/

theorem checkEdge_charges {b : Bool} {s : State} (h : s.slot.line ≠ .asserted) : checkEdge b s =
    chargeCheck b (s.putSlot { s.slot with latch := { owner := s.arb.owner, addr := checkAddr b s } }) := if_neg h

theorem oweSlotFault_eq (k : Cause) (b : Bool) (a : Option Nat) (s : State) : oweSlotFault k b a s = s.putSlot { s.slot with
    slotFault := some (s.slot.slotFault.getD ⟨k, b, a⟩) } := by
  unfold oweSlotFault
  cases h : s.slot.slotFault with
  | none => rfl
  | some f =>
    show s = s.putSlot { s.slot with slotFault := some f }
    rw [← h]
    rfl

theorem unitFault_stops {f : ChanFault} {a : Nat} {c : Chan} {s : State} (hs : (s.chan c).state = .active)
    (hstop : (s.chan c).stopOnFault = true) : unitFault f a c s =
      s.putChan c { (s.chan c).withFault f a with mask := true, soft := false, blockRun := false, state := .stopping .idle } := by
  have hrec : (recordFault f a c s).chan c = (s.chan c).withFault f a := (State.putChan_chan ..).trans (if_pos rfl)
  rw [unitFault, stopOnFault, hrec, if_pos (show ((s.chan c).withFault f a).stopOnFault = true from hstop), maskChan_owner (by rw [hrec]; exact .inl hs), hrec, recordFault, putChan_putChan]

theorem checkHost_marks {s : State} {cyc : Cycle} {x : Xfer} (hc : s.slot.cycle = some cyc) (hck : cyc.check = false)
    (hrd : cyc.ready = false) (hx : s.xfer = some x) : checkHost s = { s with
      xfer := some (x.fault .check), slot := { s.slot with cycle := some { cyc with check := true } } } := by
  have hnot : ¬ (cyc.check || cyc.ready) = true := by
    rw [hck, hrd]
    decide
  simp only [checkHost, hc, if_neg hnot, markCheck, faultXfer, hx]
  rfl

/-- Settles O19: the edge is latched with its owner, and charged by it. -/
theorem checkEdgeIsLatchedAndCharged : Obligations.CheckEdgeIsLatchedAndCharged := by
  have hrun (b : Bool) {s u : State} (hl : s.slot.line ≠ .asserted)
      (h : chargeCheck b (s.putSlot { s.slot with latch := { owner := s.arb.owner, addr := checkAddr b s } }) = u) :
      exec (.cardCheckEdge b) s = .next u := congrArg Host.Outcome.next ((checkEdge_charges hl).trans h)
  refine ⟨fun b s hl => congrArg Host.Outcome.next (if_pos hl), fun b s hl hf => hrun b hl ?free, fun s cyc hl hc =>
    ⟨fun ho => hrun false hl ?refresh, fun c ho => hrun false hl ?unit, fun x ho hx hck hrd => hrun false hl ?host⟩,
    fun b s c hl ho hm hstop => ?master, fun s c a hl ho ha hdisc hs hstop hr hh hx ht0 ht => ?between⟩
  case free =>
    have hfree (u : State) (h : u.arb.owner = .free) : chargeCheck b u = oweSlotFault .check false none u := by rw [chargeCheck, h]
    refine (hfree _ (by exact hf)).trans ?_
    rw [oweSlotFault_eq, checkAddr, hf]
    cases hsf : s.slot.slotFault <;> simp only [State.putSlot_slot, hsf] <;> rfl
  case refresh =>
    have howner (u : State) (h : u.arb.owner = .refresh) : chargeCheck false u = oweSlotFault .check true (checkAddr false u) u := by
      rw [chargeCheck, h]
    refine (howner _ (by exact ho)).trans ?_
    rw [oweSlotFault_eq]
    cases hsf : s.slot.slotFault <;> simp only [State.putSlot_slot, hsf, checkAddr, State.putSlot_arb, ho, hc] <;> rfl
  case unit =>
    have howner (u : State) (h : u.arb.owner = .dma c) : chargeCheck false u = markCheck u := by
      rw [chargeCheck, h]
      rfl
    refine (howner _ (by exact ho)).trans ?_
    rw [markCheck]
    simp only [State.putSlot_slot, checkAddr, ho, hc]
    rfl
  case host =>
    have howner (u : State) (h : u.arb.owner = .hostPath) : chargeCheck false u = checkHost u := by
      rw [chargeCheck, h]
      rfl
    refine (howner _ (by exact ho)).trans ((checkHost_marks (by exact hc) hck hrd (by exact hx)).trans ?_)
    have haddr : checkAddr false s = some cyc.addr := by
      simp only [checkAddr, ho, hc]
      rfl
    rw [haddr, ho]
    cases hff : x.firstFault <;> rw [Xfer.fault, hff] <;> rfl
  case master =>
    have hlast : checkAddr b s = s.arb.lastMaster := by rw [checkAddr, ho]
    let v := s.putSlot { s.slot with latch := { owner := s.arb.owner, addr := checkAddr b s } }
    have hv : chargeCheck b v = recordFault .check (s.arb.lastMaster.getD 0) c v := by
      have howner : v.arb.owner = .master := ho
      have hchan : v.arb.masterChan = some c := hm
      rw [chargeCheck, howner]
      simp only [hchan]
      exact unitFault_goesOn (s := v) hstop
    have hrec : (recordFault .check (s.arb.lastMaster.getD 0) c v).chan c = (s.chan c).withFault .check (s.arb.lastMaster.getD 0) :=
      (State.putChan_chan ..).trans (if_pos rfl)
    refine ⟨_, hrun b hl hv, (putSlot_within _ s).seq (recordFault_within ..), ?_, ?_, ?_, fun h0 h1 => ?_, ?_, fun d hd => ?_⟩
    · rw [(recordFault_within ..).slot rfl, ← hlast, ← ho]
      rfl
    · rw [hrec]; rfl
    · rw [hrec]; rfl
    · rw [hrec]
      exact if_pos ⟨h1, h0⟩
    · rw [hrec]; rfl
    · exact (State.putChan_chan ..).trans (if_neg hd)
  case between =>
    obtain ⟨x, hx⟩ := Option.ne_none_iff_exists'.1 hx
    have haddr : checkAddr true s = some a := by rw [checkAddr, ho, ha]; rfl
    let v := s.putSlot { s.slot with latch := { owner := s.arb.owner, addr := checkAddr true s } }
    let w := v.putChan c { (s.chan c).withFault .check a with mask := true, soft := false, blockRun := false, state := .stopping .idle }
    have hw : unitFault .check a c v = w := unitFault_stops (s := v) hs hstop
    have hwc : w.chan c = { (s.chan c).withFault .check a with mask := true, soft := false, blockRun := false, state := .stopping .idle } :=
      (State.putChan_chan ..).trans (if_pos rfl)
    have hdiscarded : discarded v = false := by
      show discarded s = false
      unfold discarded
      cases hc : s.slot.cycle with
      | none => rfl
      | some cyc => exact hdisc cyc hc
    have hv : chargeCheck true v = kickBus (endDmaTenure c w) := by
      have howner : v.arb.owner = .dma c := ho
      have hlast : v.slot.lastAddr = some a := ha
      have hact : (v.chan c).state = .active := hs
      rw [chargeCheck, howner]
      simp only [hlast, hdiscarded, Option.isSome_some, Bool.and_self, Bool.not_false, if_true, Option.getD_some, checkUnitBetween, hw, hact, hwc]
      rfl
    have hstopping : (w.chan c).state = .stopping .idle := by rw [hwc]
    obtain ⟨harb, hslot, hrefresh, hxfer, hset⟩ := endDmaTenure_bus (c := c) (s := w) (.inr ⟨_, hstopping⟩)
    have hlimit : limitHolds w = true := by
      have h : limitHolds w = limitHolds s := rfl
      rw [h, limitHolds, limitReached]
      simp [hh, ht0, ht]
    obtain ⟨harb', hlatch⟩ := kickBus_hostTurn (s := endDmaTenure c w) (x := x) (by rw [harb]) (by rw [hslot]; exact hl)
      (by rw [hrefresh]; exact hr) (by rw [harb, hlimit]; exact Bool.or_true _) (by rw [harb]; exact hh) (by rw [hxfer]; exact hx)
    refine ⟨_, hrun true hl hv, ?_, ?_, ?_, ?_, ?_, fun hnone => ?_⟩
    · rw [hlatch, hslot, ← ho, ← haddr]
      rfl
    · rw [harb']
    · rw [harb']
    · rw [harb']
    · refine ((endDmaTenure_starves (.inr ⟨_, hstopping⟩)).after (kickBus_faults _ c)).keeps_flag.1 ?_
      rw [hwc]
      simp [Channel.withFault, ChanFault.flag]
    · rw [kickBus_mask, endDmaTenure_stopping hstopping]
      refine enterStopping_mask ?_
      exact (workOf_of_queue ((boundary_within c w).queue rfl)).trans hnone

end Sys2Proof.Machine
end

section
/-! PROOF. The last clock of a cycle and its extension (R4, R11): what the end of a cycle does goes by the record of the cycle
that ends, whatever the engine holds. -/

namespace Sys2Proof.Machine

set_option Elab.async false

/-! ## A unit's end does not look at the cycle in the engine, nor at the refresh timer -/

/-- The state with another cycle in the engine and another count of the refresh timer. -/
def aside (cyf : Option Cycle → Option Cycle) (tf : Nat → Nat) (s : State) : State :=
  { s with slot := { s.slot with cycle := cyf s.slot.cycle }, refresh := { s.refresh with timer := tf s.refresh.timer } }

section

variable (cyf : Option Cycle → Option Cycle) (tf : Nat → Nat) (c : Chan) (s : State)

theorem closeRun_aside : closeRun c (aside cyf tf s) = aside cyf tf (closeRun c s) := by
  cases h : (s.stage c).opened with
  | none => rw [closeRun_none h]; exact closeRun_none h
  | some r => rw [closeRun_of_opened h]; exact closeRun_of_opened h

theorem flushDemand_aside : flushDemand c (aside cyf tf s) = aside cyf tf (flushDemand c s) := by
  unfold flushDemand
  dsimp only
  rw [closeRun_aside]
  simp only [apply_ite (aside cyf tf)]
  rfl

theorem placeChan_aside (b : Bool) : placeChan b c (aside cyf tf s) = aside cyf tf (placeChan b c s) := by
  unfold placeChan
  dsimp only
  simp only [apply_ite (aside cyf tf)]
  rfl

theorem unmask_aside (ch : Channel) : unmask c ch (aside cyf tf s) = aside cyf tf (unmask c ch s) := by
  have h : unmasking c ch (aside cyf tf s) = aside cyf tf (unmasking c ch s) := by
    unfold unmasking
    simp only [apply_ite (aside cyf tf)]
    rfl
  rw [unmask_eq, h, placeChan_aside, unmask_eq]

theorem clearMask_aside : clearMask c (aside cyf tf s) = aside cyf tf (clearMask c s) := by
  by_cases h : (s.chan c).state = .idle ∨ (s.chan c).state = .finished
  · rw [clearMask_resumes h, clearMask_resumes (by exact h)]
    unfold causing
    dsimp only
    rw [show (aside cyf tf s).chan c = s.chan c from rfl, unmask_aside]
    rfl
  · obtain ⟨hi, hf⟩ := not_or.1 h
    rw [clearMask_other_state hi hf]
    exact clearMask_other_state hi hf

theorem waitingClear_aside : waitingClear c (aside cyf tf s) = aside cyf tf (waitingClear c s) := by
  have hw : workOf (aside cyf tf s) = workOf s := rfl
  unfold waitingClear
  rw [hw]
  cases workOf s with
  | maskClear m left =>
    dsimp only
    rw [show setWork (.maskClear m (left.put c false)) (aside cyf tf s) = aside cyf tf (setWork (.maskClear m (left.put c false)) s) from rfl,
      clearMask_aside, apply_ite (aside cyf tf)]
  | _ => rfl

theorem takeHead_aside : takeHead (aside cyf tf s) = aside cyf tf (takeHead s) := by
  unfold takeHead
  simp only [apply_ite (aside cyf tf)]
  rfl

theorem endWith_aside (b : Bool) (st : Status) (n : Nat) (d : List Byte) :
    endWith b st n d (aside cyf tf s) = aside cyf tf (endWith b st n d s) := by
  have hretire (s : State) : retire (aside cyf tf s) = aside cyf tf (retire s) := by
    cases h : s.queue.exec with
    | none => simp only [retire, h, show (aside cyf tf s).queue = s.queue from rfl]
    | some e =>
      simp only [retire, h, show (aside cyf tf s).queue = s.queue from rfl]
      have htake (q : Queue) : takeHead (((aside cyf tf s).putActive none).putQueue q) =
          aside cyf tf (takeHead ((s.putActive none).putQueue q)) := takeHead_aside cyf tf ((s.putActive none).putQueue q)
      exact htake _
  cases h : s.queue.exec with
  | none => simp only [endWith, h, show (aside cyf tf s).queue = s.queue from rfl]
  | some e =>
    simp only [endWith, h, show (aside cyf tf s).queue = s.queue from rfl, apply_ite (aside cyf tf), ← hretire]
    rfl

theorem maskCheck_aside : maskCheck (aside cyf tf s) = aside cyf tf (maskCheck s) := by
  have hw : workOf (aside cyf tf s) = workOf s := rfl
  have hanswer : answerPlain .ok (aside cyf tf s) = aside cyf tf (answerPlain .ok s) := endWith_aside ..
  unfold maskCheck
  rw [hw]
  cases workOf s with
  | nothing => rfl
  | fence n w => rfl
  | _ =>
    dsimp only
    rw [hanswer]
    simp only [apply_ite (aside cyf tf)]
    rfl

theorem endStopping_aside : endStopping c (aside cyf tf s) = aside cyf tf (endStopping c s) := by
  have hc : (aside cyf tf s).chan c = s.chan c := rfl
  unfold endStopping
  rw [hc]
  cases (s.chan c).state with
  | stopping d =>
    have hput (v : Channel) : maskCheck (waitingClear c ((aside cyf tf s).putChan c v)) =
        aside cyf tf (maskCheck (waitingClear c (s.putChan c v))) := by
      rw [← maskCheck_aside, ← waitingClear_aside]
      rfl
    dsimp only
    rw [hput]
    simp only [apply_ite (aside cyf tf)]
    rfl
  | _ => rfl

theorem enterStopping_aside (d : Dest) : enterStopping c d (aside cyf tf s) = aside cyf tf (enterStopping c d s) := by
  have h : stopEntered c d (aside cyf tf s) = aside cyf tf (stopEntered c d s) := by
    unfold stopEntered
    rw [show (aside cyf tf s).chan c = s.chan c from rfl, apply_ite (aside cyf tf)]
    refine congrArg (ite _ _) ?_
    cases (s.chan c).dir with
    | toMemory =>
      dsimp only
      rw [← flushDemand_aside]
      rfl
    | _ => rfl
  rw [enterStopping_entered, h, endStopping_aside, enterStopping_entered]

theorem stopOnFault_aside : stopOnFault c (aside cyf tf s) = aside cyf tf (stopOnFault c s) := by
  have hmask : maskChan c (aside cyf tf s) = aside cyf tf (maskChan c s) := by
    have hc : (aside cyf tf s).chan c = s.chan c := rfl
    have hput (v : Channel) : (aside cyf tf s).putChan c v = aside cyf tf (s.putChan c v) := rfl
    cases hs : (s.chan c).state <;> simp only [maskChan, hc, hs, hput, enterStopping_aside]
  unfold stopOnFault
  rw [hmask, apply_ite (aside cyf tf)]
  rfl

theorem placeFound_aside (bs : List Byte) (l e h : Nat) : placeFound c bs l e h (aside cyf tf s) = aside cyf tf (placeFound c bs l e h s) := by
  unfold placeFound
  rw [show (aside cyf tf s).stage c = s.stage c from rfl]
  cases (s.stage c).opened with
  | none => rfl
  | some r =>
    have hput (v : Staging) : closeRun c ((aside cyf tf s).putStage c v) = aside cyf tf (closeRun c (s.putStage c v)) :=
      closeRun_aside cyf tf c (s.putStage c v)
    dsimp only
    rw [closeRun_aside, hput]
    simp only [apply_ite (aside cyf tf)]
    rfl

theorem consumeUnit_aside : consumeUnit c (aside cyf tf s) = aside cyf tf (consumeUnit c s) := by
  have hst : (aside cyf tf s).stage c = s.stage c := rfl
  have hput (v : Staging) : (aside cyf tf s).putStage c v = aside cyf tf (s.putStage c v) := rfl
  cases hk : (s.stage c).chunks with
  | nil => simp only [consumeUnit, hst, hk]
  | cons k ks => cases hd : k.data <;> simp only [consumeUnit, hst, hk, hd, hput]

theorem moveUnit_aside (bs : List Byte) (l : Nat) :
    moveUnit c bs l (aside cyf tf s) = (aside cyf tf (moveUnit c bs l s).1, (moveUnit c bs l s).2) := by
  unfold moveUnit
  rw [show (aside cyf tf s).chan c = s.chan c from rfl]
  cases (s.chan c).dir with
  | toMemory =>
    dsimp only
    unfold placeUnit
    rw [show (aside cyf tf s).map = s.map from rfl]
    cases lookupMap s.map l .write with
    | found e h => dsimp only; rw [placeFound_aside]
    | _ => rfl
  | fromMemory =>
    exact congrArg (fun u => (u, none)) (consumeUnit_aside cyf tf c s)
  | verify => rfl

theorem terminalCount_aside : terminalCount c (aside cyf tf s) = aside cyf tf (terminalCount c s) := by
  unfold terminalCount
  rw [show (aside cyf tf s).chan c = s.chan c from rfl]
  cases (s.chan c).dir with
  | toMemory => exact flushDemand_aside cyf tf c (s.putChan c (s.chan c).atTerminal)
  | fromMemory =>
    dsimp only
    unfold cursorSync
    simp only [apply_ite (aside cyf tf)]
    rfl
  | verify => rfl

/-- A unit's bytes, step, terminal count and faults go by the record of the cycle that ends. -/
theorem performUnit_aside (cyc : Cycle) (p : CyclePhase) (bs : List Byte) :
    performUnit c { cyc with phase := p } bs (aside cyf tf s) = aside cyf tf (performUnit c cyc bs s) := by
  have hrecord (f : ChanFault) (a : Nat) (u : State) : recordFault f a c (aside cyf tf u) = aside cyf tf (recordFault f a c u) := rfl
  have hif (o : Option ChanFault) (a : Nat) (u : State) : recordIf o a c (aside cyf tf u) = aside cyf tf (recordIf o a c u) := by
    cases o <;> rfl
  have hput (u : State) : (aside cyf tf u).putChan c ((aside cyf tf u).chan c).step = aside cyf tf (u.putChan c (u.chan c).step) := rfl
  unfold performUnit
  dsimp only
  rw [moveUnit_aside]
  dsimp only
  rw [hif, hput, terminalCount_aside]
  simp only [← apply_ite (aside cyf tf), hrecord, stopOnFault_aside]

end

/-- The cycle engine holds this cycle. -/
def withCycle (cy : Option Cycle) (s : State) : State := s.putSlot { s.slot with cycle := cy }

theorem endUnitCycle_withCycle (cy : Option Cycle) (c : Chan) (s : State) (cyc : Cycle) (p : CyclePhase) (bs : List Byte) :
    endUnitCycle c { cyc with phase := p } bs (withCycle cy s) = endUnitCycle c cyc bs s := by
  have htenure (u : State) : endDmaTenure c (withCycle cy u) = endDmaTenure c u := rfl
  have hgoes (tc : Bool) (u : State) : continueDma c tc (withCycle cy u) = continueDma c tc u := by
    unfold continueDma
    rw [htenure]
    rfl
  unfold endUnitCycle
  have hperform : performUnit c { cyc with phase := p } bs (withCycle cy s) = withCycle cy (performUnit c cyc bs s) :=
    performUnit_aside (fun _ => cy) id c s cyc p bs
  rw [hperform, ← hgoes]
  rfl

theorem endRefreshCycle_withCycle (cy : Option Cycle) (s : State) (cyc : Cycle) (p : CyclePhase) :
    endRefreshCycle { cyc with phase := p } (withCycle cy s) = endRefreshCycle cyc s := rfl

theorem endHostCycle_withCycle (cy : Option Cycle) {s : State} (cyc : Cycle) (p : CyclePhase) (bs : List Byte) (h : s.xfer ≠ none) :
    endHostCycle { cyc with phase := p } bs (withCycle cy s) = endHostCycle cyc bs s := by
  obtain ⟨x, hx⟩ := Option.ne_none_iff_exists'.1 h
  simp only [endHostCycle, show (withCycle cy s).xfer = s.xfer from rfl, hx]
  rfl

/-! ## The last clock and the release of ready (R4, R11) -/

theorem releaseReady_extended {data : BusWord} {s : State} {cyc : Cycle} (hc : s.slot.cycle = some cyc) (hp : cyc.phase = .extended) :
    releaseReady data s = endCycle cyc data s := by
  simp only [releaseReady, hc, hp, if_true]

theorem Cycle.sensed_attempt {cyc : Cycle} (hk : cyc.kind = .word) (hs : cyc.sense = none) (sense : Bool) : cyc.sensed sense =
    { cyc with sense := some sense, kind := if sense then .word else .byte, drive := if sense then cyc.drive else cyc.drive.take 1 } := by
  rw [Cycle.sensed, if_pos (by rw [hk, hs]; rfl)]

/-- Ready high at the last clock of the cycle before it was extended. -/
theorem lastClock_unextended {mine : Cycle → Bool} {sense : Bool} {data : BusWord} {s : State} {cyc : Cycle}
    (hm : mine { cyc with phase := .running } = true) (hk : cyc.kind ≠ .word ∨ cyc.sense ≠ none) :
    lastClock mine sense true data (withCycle (some { cyc with phase := .running }) s) =
      endCycle { cyc with phase := .running } data (withCycle (some { cyc with phase := .running }) s) := by
  rw [lastClock_ends (cyc := { cyc with phase := .running }) rfl rfl hm, Cycle.sensed_of_other (by exact hk)]

/-- Settles O14: the cycle is extended where ready is low, and its release does what ready high does at the last clock. -/
theorem readyLowExtendsUntilReleased : Obligations.ReadyLowExtendsUntilReleased := by
  refine ⟨fun s cyc sense data hc hp => ⟨fun ho hk => ?_, fun ho hk hs => ?_, fun ho hk => ?_, fun ho hk => ?_⟩,
    fun s s' cyc data hc hp hs' => ⟨fun ho hx hk sense => ⟨endCycle cyc data s, congrArg Host.Outcome.next (releaseReady_extended hc hp), ?_⟩,
      fun ho hk => ⟨endCycle cyc data s, congrArg Host.Outcome.next (releaseReady_extended hc hp), ?_⟩,
      fun ho hk => ⟨endCycle cyc data s, congrArg Host.Outcome.next (releaseReady_extended hc hp), ?_⟩⟩⟩
  · refine congrArg Host.Outcome.next ((lastClock_extends hc hp (by simp [hostCycle, ho])).trans ?_)
    rw [Cycle.sensed_of_other hk]
  · refine congrArg Host.Outcome.next ((lastClock_extends hc hp (by simp [hostCycle, ho])).trans ?_)
    rw [Cycle.sensed_attempt hk hs]
  · refine congrArg Host.Outcome.next ((lastClock_extends hc hp (by simp [unitCycleOf, ho])).trans ?_)
    rw [Cycle.sensed_of_other (.inl (by rw [hk]; decide))]
  · refine congrArg Host.Outcome.next ((lastClock_extends hc hp (by simp [refreshCycleOf, ho])).trans ?_)
    rw [Cycle.sensed_of_other (.inl (by rw [hk]; decide))]
  · rw [hs']
    refine congrArg Host.Outcome.next ((lastClock_unextended (by simp [hostCycle, ho]) hk).trans ?_)
    simp only [endCycle, ho]
    exact endHostCycle_withCycle _ cyc .running _ hx
  · rw [hs']
    refine congrArg Host.Outcome.next ((lastClock_unextended (by simp [unitCycleOf, ho]) (.inl (by rw [hk]; decide))).trans ?_)
    cases hown : cyc.owner <;> rw [hown] at ho
    case dma c =>
      simp only [endCycle, hown]
      exact endUnitCycle_withCycle _ c s cyc .running _
    all_goals cases ho
  · rw [hs']
    refine congrArg Host.Outcome.next ((lastClock_unextended (by simp [refreshCycleOf, ho]) (.inl (by rw [hk]; decide))).trans ?_)
    simp only [endCycle, ho]
    exact endRefreshCycle_withCycle _ s cyc .running

end Sys2Proof.Machine
end

section
/-! PROOF. The end of a unit (R83, R90, R94, R95, R105, R106): what becomes of its bytes, of its channel's record, and of the tenure. -/

namespace Sys2Proof.Machine

set_option Elab.async false

/-! ## The record of a channel after a unit (R90, R94) -/

/-- The record with a fault told, if there is one. -/
def Channel.tells (ch : Channel) (o : Option ChanFault) (a : Nat) : Channel :=
  match o with
  | some f => ch.withFault f a
  | none => ch

/-- The faults of the cycle itself. -/
def readyOf (cyc : Cycle) : Option ChanFault := if cyc.ready then some .ready else none
def checkOf (cyc : Cycle) : Option ChanFault := if cyc.check then some .check else none

/-- The record after a unit that is not the terminal-count unit: the fault of the map, the step, the faults of the cycle. -/
def Channel.afterUnit (ch : Channel) (o : Option ChanFault) (cyc : Cycle) : Channel :=
  (((ch.tells o cyc.addr).step).tells (readyOf cyc) cyc.addr).tells (checkOf cyc) cyc.addr

theorem putChan_tells (o : Option ChanFault) (a : Nat) (c : Chan) (v : Channel) (s : State) :
    recordIf o a c (s.putChan c v) = s.putChan c (v.tells o a) := by
  cases o with
  | none => rfl
  | some f => exact recordFault_putChan f a c v s

theorem recordIf_eq (o : Option ChanFault) (a : Nat) (c : Chan) (s : State) : recordIf o a c s = s.putChan c ((s.chan c).tells o a) := by
  rw [← putChan_tells, putChan_chan_self]

theorem recordFault_readyOf (cyc : Cycle) (c : Chan) (s : State) :
    (if cyc.ready then recordFault .ready cyc.addr c s else s) = recordIf (readyOf cyc) cyc.addr c s := by
  cases h : cyc.ready <;> simp [readyOf, h, recordIf]

theorem recordFault_checkOf (cyc : Cycle) (c : Chan) (s : State) :
    (if cyc.check then recordFault .check cyc.addr c s else s) = recordIf (checkOf cyc) cyc.addr c s := by
  cases h : cyc.check <;> simp [checkOf, h, recordIf]

theorem moveUnit_chan (c d : Chan) (bs : List Byte) (l : Nat) (s : State) : (moveUnit c bs l s).1.chan d = s.chan d :=
  congrArg (fun g => g.chans.get d) ((moveUnit_within c bs l s).dma rfl)

/-- The unit before stop-on-fault: its bytes moved, and its channel's record. -/
def unitMoved (c : Chan) (cyc : Cycle) (bs : List Byte) (s : State) : State :=
  (moveUnit c bs cyc.addr s).1.putChan c ((s.chan c).afterUnit (moveUnit c bs cyc.addr s).2 cyc)

theorem unitMoved_chan (c : Chan) (cyc : Cycle) (bs : List Byte) (s : State) :
    (unitMoved c cyc bs s).chan c = (s.chan c).afterUnit (moveUnit c bs cyc.addr s).2 cyc := (State.putChan_chan ..).trans (if_pos rfl)

theorem performUnit_eq {c : Chan} {cyc : Cycle} {bs : List Byte} {s : State} (htc : cyc.tc = false) : performUnit c cyc bs s =
    if (moveUnit c bs cyc.addr s).2.isSome || cyc.ready || cyc.check then stopOnFault c (unitMoved c cyc bs s) else unitMoved c cyc bs s := by
  unfold performUnit
  dsimp only
  rw [htc, if_neg Bool.false_ne_true, recordFault_readyOf, recordFault_checkOf, recordIf_eq (moveUnit c bs cyc.addr s).2, State.putChan_chan, if_pos rfl,
    putChan_putChan, putChan_tells, putChan_tells, moveUnit_chan]
  rfl

/-- The rest of the unit's end: one unit more is counted, and the address told. -/
def unitCounted (a : Nat) (s : State) : State :=
  { s with arb := { s.arb with dmaCount := min 255 (s.arb.dmaCount + 1) }, slot := { s.slot with lastAddr := some a } }

theorem endUnitCycle_eq {c : Chan} {cyc : Cycle} {bs : List Byte} {s : State} (hd : cyc.discard = false) :
    endUnitCycle c cyc bs s = continueDma c cyc.tc (unitCounted cyc.addr (performUnit c cyc bs s)) := if_neg (by rw [hd]; decide)

/-- A unit with no fault, or of a channel that no fault stops. -/
theorem performUnit_goesOn {c : Chan} {cyc : Cycle} {bs : List Byte} {s : State} (htc : cyc.tc = false)
    (h : (moveUnit c bs cyc.addr s).2 = none ∧ cyc.ready = false ∧ cyc.check = false ∨ (s.chan c).stopOnFault = false) :
    performUnit c cyc bs s = unitMoved c cyc bs s := by
  have hown (o : Option ChanFault) (a : Nat) (ch : Channel) : (ch.tells o a).stopOnFault = ch.stopOnFault := by cases o <;> rfl
  rw [performUnit_eq htc]
  rcases h with ⟨hm, hr, hc⟩ | h
  · rw [hm, hr, hc]
    rfl
  · have hkeep : stopOnFault c (unitMoved c cyc bs s) = unitMoved c cyc bs s := by
      refine if_neg ?_
      rw [unitMoved_chan, Channel.afterUnit, hown, hown]
      show ¬ (Channel.tells (s.chan c) _ cyc.addr).stopOnFault = true
      rw [hown, h]
      decide
    rw [hkeep, ite_self]

/-- A unit whose fault stops the channel: it keeps the bus to the boundary only. -/
theorem performUnit_stops {c : Chan} {cyc : Cycle} {bs : List Byte} {s : State} (htc : cyc.tc = false) (hs : (s.chan c).state = .active)
    (hf : (moveUnit c bs cyc.addr s).2 ≠ none) (hstop : (s.chan c).stopOnFault = true) : performUnit c cyc bs s =
      (moveUnit c bs cyc.addr s).1.putChan c { (s.chan c).afterUnit (moveUnit c bs cyc.addr s).2 cyc with
        mask := true, soft := false, blockRun := false, state := .stopping .idle } := by
  have hown (o : Option ChanFault) (a : Nat) (ch : Channel) : (ch.tells o a).stopOnFault = ch.stopOnFault ∧ (ch.tells o a).state = ch.state := by
    cases o <;> exact ⟨rfl, rfl⟩
  have hafter : (unitMoved c cyc bs s).chan c = (s.chan c).afterUnit (moveUnit c bs cyc.addr s).2 cyc := unitMoved_chan c cyc bs s
  have hkept : ((s.chan c).afterUnit (moveUnit c bs cyc.addr s).2 cyc).stopOnFault = true ∧
      ((s.chan c).afterUnit (moveUnit c bs cyc.addr s).2 cyc).state = .active := by
    rw [Channel.afterUnit, (hown ..).1, (hown ..).2, (hown ..).1, (hown ..).2]
    exact ⟨((hown (moveUnit c bs cyc.addr s).2 cyc.addr (s.chan c)).1).trans hstop, ((hown (moveUnit c bs cyc.addr s).2 cyc.addr (s.chan c)).2).trans hs⟩
  rw [performUnit_eq htc, Option.isSome_iff_ne_none.2 hf, Bool.true_or, Bool.true_or, if_pos rfl, stopOnFault, hafter, if_pos hkept.1,
    maskChan_owner (by rw [hafter]; exact .inl hkept.2), hafter, unitMoved, putChan_putChan]

/-! ## The faults of a unit (R94) -/

theorem withFault_takes (f : ChanFault) (a : Nat) (ch : Channel) : TakesFaults f.flag a ch (ch.withFault f a) :=
  ⟨rfl, rfl, if_congr and_comm rfl rfl, rfl⟩

theorem TakesFaults.same {f : BitVec 6} {a : Nat} {x y z : Channel} (h : TakesFaults f a x y) (k : SameFaults y z) : TakesFaults f a x z :=
  ⟨k.1.trans h.1, k.2.2.1.trans h.2.1, k.2.1.trans h.2.2.1, k.2.2.2.trans h.2.2.2⟩

theorem TakesFaults.before {f : BitVec 6} {a : Nat} {x y z : Channel} (k : SameFaults x y) (h : TakesFaults f a y z) : TakesFaults f a x z := by
  obtain ⟨h1, h2, h3, h4⟩ := k
  rw [TakesFaults, h1, h2, h3, h4] at h
  exact h

/-- Two faults of one unit: the first gives the addresses. -/
theorem TakesFaults.trans {f g : BitVec 6} {a : Nat} {x y z : Channel} (h : TakesFaults f a x y) (k : TakesFaults g a y z) :
    TakesFaults (f ||| g) a x z := by
  obtain ⟨hf, ho, hff, hoa⟩ := h
  obtain ⟨kf, ko, kff, koa⟩ := k
  refine ⟨by rw [kf, hf, BitVec.or_assoc], by rw [ko, ho, BitVec.or_assoc], ?_, ?_⟩
  · rw [kff]
    by_cases hx : x.faults = 0 ∧ x.firstFault = 0
    · rw [if_pos hx] at hff ⊢
      rw [hff, ite_self]
    · rw [if_neg hx] at hff ⊢
      rw [hff, if_neg fun hy => hx ⟨(BitVec.or_eq_zero_iff.1 (hf.symm.trans hy.1)).1, hy.2⟩]
  · rw [koa]
    by_cases hx : x.owedFaults = 0
    · rw [if_pos hx] at hoa ⊢
      rw [hoa, ite_self]
    · rw [if_neg hx] at hoa ⊢
      have hy : ¬ y.owedFaults = 0 := fun hy => hx (BitVec.or_eq_zero_iff.1 (ho.symm.trans hy)).1
      rw [hoa, if_neg hy]

/-- What a further fault, if there is one, adds. -/
theorem TakesFaults.tells {f : BitVec 6} {a : Nat} {x y : Channel} (h : TakesFaults f a x y) (o : Option ChanFault) :
    TakesFaults (f ||| (o.map ChanFault.flag).getD 0) a x (y.tells o a) := by
  cases o with
  | none =>
    rw [Option.map_none, Option.getD_none, show f ||| 0 = f from BitVec.or_zero]
    exact h
  | some g => exact h.trans (withFault_takes g a y)

theorem Channel.step_faults (ch : Channel) : SameFaults ch ch.step := .refl ch

/-- The programmed fields and the counts after a unit. -/
theorem Channel.afterUnit_eq (ch : Channel) (o : Option ChanFault) (cyc : Cycle) : ch.afterUnit o cyc = { ch with
    curAddr := steppedAddr ch, curCount := ch.curCount - 1, faults := (ch.afterUnit o cyc).faults
    firstFault := (ch.afterUnit o cyc).firstFault, owedFaults := (ch.afterUnit o cyc).owedFaults
    owedAddr := (ch.afterUnit o cyc).owedAddr } := by
  unfold Channel.afterUnit readyOf checkOf
  cases o <;> cases cyc.ready <;> cases cyc.check <;> rfl

/-! ## The bytes of a unit (R105, R106, R113) -/

theorem follows_iff (ch : Channel) (r : Run) (n l e h : Nat) : follows ch.decrement r n l e h = true ↔ JoinsRun ch r n l e h := by
  unfold follows sameFrame JoinsRun
  cases ch.decrement <;> simp only [Bool.and_eq_true, decide_eq_true_eq, Bool.false_eq_true, if_true, if_false] <;>
    simp [Config.frameBytes, eq_comm (a := e), and_assoc]

theorem joinRun_eq (ch : Channel) (r : Run) (bs : List Byte) (l h : Nat) : joinRun ch.decrement r bs l h = joinedRun ch r bs l h := rfl

theorem runEnds_iff (ch : Channel) (en : Entry) (r : Run) : runEnds ch.decrement ch.threshold en r = true ↔ RunFull ch en r := by
  unfold runEnds RunFull
  cases ch.decrement <;> simp only [Bool.or_eq_true, decide_eq_true_eq, Bool.false_eq_true, if_true, if_false] <;> simp [Config.frameBytes]

/-- The placing of a unit looks at the order and the channel's staging only. -/
theorem UnitPlaced.of_eq {c : Chan} {bs : List Byte} {l e h : Nat} {s t u : State} (p : UnitPlaced c bs l e h s t)
    (ho : u.order = t.order) (hs : u.stage c = t.stage c) : UnitPlaced c bs l e h s u := by
  unfold UnitPlaced at p ⊢
  rw [ho, hs]
  exact p

theorem placeFound_placed (c : Chan) (bs : List Byte) (l e h : Nat) (s : State) : UnitPlaced c bs l e h s (placeFound c bs l e h s) := by
  refine ⟨fun ho => ?_, fun r j ho hj => ⟨fun hjoin hfull => ?_, fun hjoin hfull => ?_, fun hjoin => ?_⟩⟩
  · simp only [placeFound, ho]
    exact ⟨rfl, (State.putStage_stage ..).trans (if_pos rfl)⟩
  · rw [← follows_iff] at hjoin
    rw [← runEnds_iff] at hfull
    have hrun := (joinRun_eq (s.chan c) r bs l h).trans hj.symm
    let u := s.putStage c { s.stage c with opened := some j }
    have hu : u.stage c = { s.stage c with opened := some j } := (State.putStage_stage ..).trans (if_pos rfl)
    have hplace : placeFound c bs l e h s = closeRun c u := by
      simp only [placeFound, ho, hjoin, if_true, hrun]
      exact if_pos hfull
    rw [hplace, closeRun_stage, if_pos rfl, hu, closeRun_of_opened (by rw [hu])]
    exact ⟨rfl, rfl⟩
  · rw [← follows_iff] at hjoin
    rw [← runEnds_iff] at hfull
    have hrun := (joinRun_eq (s.chan c) r bs l h).trans hj.symm
    have hplace : placeFound c bs l e h s = s.putStage c { s.stage c with opened := some j } := by
      simp only [placeFound, ho, hjoin, if_true, hrun]
      exact if_neg hfull
    rw [hplace]
    exact ⟨rfl, (State.putStage_stage ..).trans (if_pos rfl)⟩
  · rw [← follows_iff, Bool.not_eq_true] at hjoin
    have hplace : placeFound c bs l e h s =
        (closeRun c s).putStage c { (closeRun c s).stage c with opened := some (startRun bs l e h) } := by
      simp only [placeFound, ho, hjoin]
      rfl
    rw [hplace, State.putStage_stage, if_pos rfl, closeRun_stage, if_pos rfl]
    refine ⟨?_, rfl⟩
    show (closeRun c s).order = _
    rw [closeRun_of_opened ho]

theorem moveUnit_found {c : Chan} {bs : List Byte} {l e h : Nat} {s : State} (hd : (s.chan c).dir = .toMemory)
    (hl : lookupMap s.map l .write = .found e h) : moveUnit c bs l s = (placeFound c (bs.take c.unit) l e h s, none) := by
  simp only [moveUnit, hd, placeUnit, hl]

/-- The fault of a lookup that does not find the address. -/
def mapFault : Lookup → Option ChanFault
  | .miss => some .miss
  | .denied => some .denied
  | .found _ _ => none

theorem moveUnit_dropped {c : Chan} {bs : List Byte} {l : Nat} {o : Lookup} {s : State} (hd : (s.chan c).dir = .toMemory)
    (hl : lookupMap s.map l .write = o) (ho : o = .miss ∨ o = .denied) : moveUnit c bs l s = (s, mapFault o) := by
  rcases ho with ho | ho <;> simp only [moveUnit, hd, placeUnit, hl, ho, mapFault]

theorem mapFault_takes {o : Lookup} (ho : o = .miss ∨ o = .denied) (a : Nat) (ch : Channel) :
    TakesFaults (mapFlag o) a ch (ch.tells (mapFault o) a) := by
  rcases ho with ho | ho <;> rw [ho] <;> exact withFault_takes _ a ch

theorem moveUnit_verify {c : Chan} {bs : List Byte} {l : Nat} {s : State} (hd : (s.chan c).dir = .verify) : moveUnit c bs l s = (s, none) := by
  simp only [moveUnit, hd]

theorem moveUnit_consumes {c : Chan} {bs : List Byte} {l : Nat} {s : State} {k : Chunk} {ks : List Chunk} {xs : List Host.Cell}
    (hd : (s.chan c).dir = .fromMemory) (hc : (s.stage c).chunks = k :: ks) (hk : k.data = some xs) : moveUnit c bs l s =
      (s.putStage c { s.stage c with chunks := if xs.length ≤ c.unit then ks else { k with data := some (xs.drop c.unit) } :: ks }, none) := by
  have hempty : (xs.drop c.unit).isEmpty = true ↔ xs.length ≤ c.unit := by rw [List.isEmpty_iff, List.drop_eq_nil_iff]
  simp only [moveUnit, hd, consumeUnit, hc, hk, hempty]

theorem moveUnit_only (c : Chan) (bs : List Byte) (l : Nat) (s : State) : OnlyChan c s (moveUnit c bs l s).1 := by
  have hfound (bs : List Byte) (e h : Nat) : OnlyChan c s (placeFound c bs l e h s) := by
    unfold placeFound
    dsimp only
    split
    · exact .putStage c _ s
    · exact .ite (.ite ((OnlyChan.putStage c _ s).trans (.closeRun c _)) (.putStage c _ s)) ((OnlyChan.closeRun c s).trans (.putStage c _ _))
  unfold moveUnit
  split
  · unfold placeUnit
    split
    · exact .refl c s
    · exact .refl c s
    · exact hfound _ _ _
  · dsimp only
    unfold consumeUnit
    dsimp only
    split
    · split
      · exact .putStage c _ s
      · exact .refl c s
    · exact .refl c s
  · exact .refl c s

/-! ## The tenure after a unit (R60, R83) -/

theorem continueDma_goesOn {c : Chan} {tc : Bool} {s : State} (h : unitGoesOn c tc s = true) : continueDma c tc s =
    beginCycle (unitCycle c (s.putChan c { s.chan c with blockRun := (s.chan c).blockRun || decide ((s.chan c).mode = .block) }))
      (s.putChan c { s.chan c with blockRun := (s.chan c).blockRun || decide ((s.chan c).mode = .block) }) := if_pos h

theorem continueDma_ends {c : Chan} {tc : Bool} {s : State} (h : unitGoesOn c tc s = false) :
    continueDma c tc s = kickBus (endDmaTenure c s) := if_neg (by rw [h]; decide)

theorem unitGoesOn_masked {c : Chan} {tc : Bool} {s : State} (h : (s.chan c).state ≠ .active) : unitGoesOn c tc s = false := by
  simp [unitGoesOn, h]

theorem continueDma_stopping {c : Chan} {d : Dest} {tc : Bool} {s : State} (h : (s.chan c).state = .stopping d) :
    continueDma c tc s = kickBus (enterStopping c d (boundary c s)) := by
  rw [continueDma_ends (unitGoesOn_masked (by rw [h]; nofun)), endDmaTenure_stopping h]

theorem endDmaTenure_active_within {c : Chan} {s : State} (h : (s.chan c).state = .active) :
    Within { slot := true, arb := true, dma := true } s (endDmaTenure c s) := by
  rw [endDmaTenure_active h]
  exact ((boundary_within c s).seq (putChan_within _ _ _) (k := { slot := true, arb := true, dma := true })).seq (placeChan_within true c _)

/-- The record of a channel whose tenure has ended with the mask clear: placed again, and STARVED told perhaps. -/
theorem endDmaTenure_active_chan {c : Chan} {s : State} (h : (s.chan c).state = .active) : (endDmaTenure c s).chan c = { s.chan c with
    state := ((endDmaTenure c s).chan c).state, faults := ((endDmaTenure c s).chan c).faults
    firstFault := ((endDmaTenure c s).chan c).firstFault, owedFaults := ((endDmaTenure c s).chan c).owedFaults
    owedAddr := ((endDmaTenure c s).chan c).owedAddr } := by
  have hp := placeChan_chan true c ((boundary c s).putChan c { s.chan c with state := .waiting })
  rw [State.putChan_chan, if_pos rfl, ← endDmaTenure_active h] at hp
  exact hp

/-- A tenure that goes on, or ends with the mask clear, leaves staging and the order as they are. -/
theorem continueDma_active_within {c : Chan} {tc : Bool} {s : State} (h : (s.chan c).state = .active) :
    Within { slot := true, arb := true, queue := true, dma := true, master := true } s (continueDma c tc s) := by
  cases hg : unitGoesOn c tc s
  · rw [continueDma_ends hg]
    exact (endDmaTenure_active_within h).seq (kickBus_within _)
  · rw [continueDma_goesOn hg]
    exact (putChan_within _ _ _).seq (beginCycle_within _ _)

theorem continueDma_active_chan {c : Chan} {tc : Bool} {s : State} (h : (s.chan c).state = .active) : (continueDma c tc s).chan c = { s.chan c with
    state := ((continueDma c tc s).chan c).state, blockRun := ((continueDma c tc s).chan c).blockRun
    faults := ((continueDma c tc s).chan c).faults, firstFault := ((continueDma c tc s).chan c).firstFault
    owedFaults := ((continueDma c tc s).chan c).owedFaults, owedAddr := ((continueDma c tc s).chan c).owedAddr } := by
  cases hg : unitGoesOn c tc s
  · rw [continueDma_ends hg]
    have hk := kickBus_chan_eq (endDmaTenure c s) c
    rw [endDmaTenure_active_chan h] at hk
    rw [hk]
  · have hc : (continueDma c tc s).chan c =
        { s.chan c with blockRun := (s.chan c).blockRun || decide ((s.chan c).mode = .block) } := by
      rw [continueDma_goesOn hg]
      exact (State.putChan_chan ..).trans (if_pos rfl)
    rw [hc]

theorem continueDma_active_faults {c : Chan} {tc : Bool} {s : State} (h : (s.chan c).state = .active) :
    MayStarve (s.chan c) ((continueDma c tc s).chan c) := by
  cases hg : unitGoesOn c tc s
  · rw [continueDma_ends hg]
    exact (endDmaTenure_starves (.inl h)).after (kickBus_faults _ c)
  · have hc : (continueDma c tc s).chan c =
        { s.chan c with blockRun := (s.chan c).blockRun || decide ((s.chan c).mode = .block) } := by
      rw [continueDma_goesOn hg]
      exact (State.putChan_chan ..).trans (if_pos rfl)
    rw [hc]
    exact .inl (.refl _)

/-! ## A unit that leaves the mask clear -/

section

variable {s : State} {c : Chan} {cyc : Cycle} {bs : List Byte} (hd : cyc.discard = false) (htc : cyc.tc = false)
  (hs : (s.chan c).state = .active)
  (hkeep : (moveUnit c bs cyc.addr s).2 = none ∧ cyc.ready = false ∧ cyc.check = false ∨ (s.chan c).stopOnFault = false)

include hd htc hs hkeep

/-- The unit's bytes are where its moving left them, and its channel's record is the unit's but for its place. -/
theorem endUnitCycle_unmasked :
    (endUnitCycle c cyc bs s).order = (moveUnit c bs cyc.addr s).1.order ∧
    (endUnitCycle c cyc bs s).staging = (moveUnit c bs cyc.addr s).1.staging ∧
    MayStarve ((s.chan c).afterUnit (moveUnit c bs cyc.addr s).2 cyc) ((endUnitCycle c cyc bs s).chan c) ∧
    (endUnitCycle c cyc bs s).chan c = { s.chan c with
      curAddr := steppedAddr (s.chan c), curCount := (s.chan c).curCount - 1, state := ((endUnitCycle c cyc bs s).chan c).state
      blockRun := ((endUnitCycle c cyc bs s).chan c).blockRun, faults := ((endUnitCycle c cyc bs s).chan c).faults
      firstFault := ((endUnitCycle c cyc bs s).chan c).firstFault, owedFaults := ((endUnitCycle c cyc bs s).chan c).owedFaults
      owedAddr := ((endUnitCycle c cyc bs s).chan c).owedAddr } := by
  have hc : (unitCounted cyc.addr (unitMoved c cyc bs s)).chan c = (s.chan c).afterUnit (moveUnit c bs cyc.addr s).2 cyc :=
    unitMoved_chan c cyc bs s
  have hafter := (s.chan c).afterUnit_eq (moveUnit c bs cyc.addr s).2 cyc
  have hact : ((unitCounted cyc.addr (unitMoved c cyc bs s)).chan c).state = .active := by
    rw [hc, hafter]
    exact hs
  have hrec := continueDma_active_chan (tc := cyc.tc) hact
  have hfaults := continueDma_active_faults (tc := cyc.tc) hact
  have hw := continueDma_active_within (tc := cyc.tc) hact
  rw [endUnitCycle_eq hd, performUnit_goesOn htc hkeep]
  rw [hc] at hrec hfaults
  refine ⟨hw.order rfl, hw.staging rfl, hfaults, ?_⟩
  rw [hafter] at hrec
  exact hrec

end

theorem stage_of_staging {s t : State} (h : t.staging = s.staging) (c : Chan) : t.stage c = s.stage c := by rw [State.stage, h]; rfl

/-! ## A channel that the fault of its unit stops (R77, R95) -/

theorem endStopping_stage_other {c d : Chan} (hd : d ≠ c) (s : State) : (endStopping c s).stage d = s.stage d := by
  have hcheck (x : State) : (maskCheck x).stage d = x.stage d := stage_of_staging ((maskCheck_within x).staging rfl) d
  rcases endStopping_cases c s with h | ⟨e, h⟩ <;> rw [h]
  rw [hcheck]
  rcases waitingClear_cases c (s.putChan c { s.chan c with state := e.state }) with h | ⟨w, h⟩ <;> rw [h]
  · rfl
  · exact (OnlyChan.clearMask c _).stage d hd

theorem clearMask_stage_toMemory {c : Chan} {s : State} (h : (s.chan c).dir ≠ .fromMemory) : (clearMask c s).stage c = s.stage c := by
  by_cases hs : (s.chan c).state = .idle ∨ (s.chan c).state = .finished
  · rw [clearMask_stage hs, unmasking, if_neg (by rw [(Channel.resumes_keeps _).2.1]; exact h)]
    rfl
  · obtain ⟨hi, hf⟩ := not_or.1 hs
    rw [clearMask_other_state hi hf]

/-- A clear that waited sets the prefetch cursor of a FROM MEMORY channel only (R111). -/
theorem endStopping_stage_own {c : Chan} {s : State} (h : (s.chan c).dir ≠ .fromMemory) : (endStopping c s).stage c = s.stage c := by
  have hcheck (x : State) : (maskCheck x).stage c = x.stage c := stage_of_staging ((maskCheck_within x).staging rfl) c
  rcases endStopping_cases c s with hc | ⟨e, hc⟩ <;> rw [hc]
  rw [hcheck]
  rcases waitingClear_cases c (s.putChan c { s.chan c with state := e.state }) with hw | ⟨w, hw⟩ <;> rw [hw]
  · rfl
  · refine (clearMask_stage_toMemory ?_).trans rfl
    have hput : (setWork w (s.putChan c { s.chan c with state := e.state })).chan c = { s.chan c with state := e.state } :=
      (State.putChan_chan ..).trans (if_pos rfl)
    rw [hput]
    exact h

theorem enterStopping_stage_other {c d : Chan} (hd : d ≠ c) (e : Dest) (s : State) : (enterStopping c e s).stage d = s.stage d :=
  (endStopping_stage_other hd _).trans ((stopEntered_only c e s).stage d hd)

theorem enterStopping_stage_own {c : Chan} {d : Dest} {s : State} (h : (s.chan c).dir ≠ .fromMemory) :
    (enterStopping c d s).stage c = (stopEntered c d s).stage c := by
  have hent := stopEntered_chan c d s
  exact endStopping_stage_own (s := stopEntered c d s) (by rw [hent]; exact h)

theorem stopEntered_toMemory {c : Chan} {d : Dest} {s : State} (hm : (s.chan c).mode ≠ .master) (hd : (s.chan c).dir = .toMemory) :
    stopEntered c d s = flushDemand c (s.putChan c { s.chan c with mask := true, state := .stopping d }) := by
  rw [stopEntered, if_neg hm, hd]

/-- With nothing in flight for a mask, a channel that stops keeps every field but its mask and its state, which is a masked one. -/
theorem enterStopping_chan {c : Chan} {d : Dest} {s : State} (hw : workOf s = .nothing) :
    (enterStopping c d s).chan c = { s.chan c with mask := true, state := ((enterStopping c d s).chan c).state } ∧
    ((enterStopping c d s).chan c).state.masked = true := by
  have hent := stopEntered_chan c d s
  rw [enterStopping_entered, endStopping_of_nothing (by rw [hent]) ((stopEntered_only c d s).workOf.trans hw)]
  split
  · rw [hent]
    exact ⟨rfl, rfl⟩
  · rw [State.putChan_chan, if_pos rfl, hent]
    exact ⟨rfl, by cases d <;> rfl⟩

theorem kickBus_stage (s : State) (c : Chan) : (kickBus s).stage c = s.stage c := stage_of_staging ((kickBus_within s).staging rfl) c

/-- A grant gives the bus to a channel that is READY. -/
theorem kickBus_owner_ne {c : Chan} {s : State} (hf : s.arb.owner = .free) (h : (s.chan c).state ≠ .ready) : (kickBus s).arb.owner ≠ .dma c := by
  rcases kickBus_cases s with h0 | ⟨-, h0 | h0 | h0 | ⟨d, hd, h0⟩⟩ <;> rw [h0]
  · rw [hf]; nofun
  · exact fun k => by rw [State.putSlot_arb, hf] at k; cases k
  · nofun
  · unfold grantHost
    cases hx : s.xfer <;> simp only [State.putSlot_xfer, hx]
    · exact fun k => by rw [State.putSlot_arb, hf] at k; cases k
    · nofun
  · unfold grantDma
    split
    · nofun
    · intro k
      have hdc : d = c := by injection k
      exact h (hdc ▸ hd)

theorem ChanState.not_ready_of_masked {st : ChanState} (h : st.masked = true) : st ≠ .ready := by rintro rfl; cases h

/-- The state in which a channel that its unit's fault stops gives the bus back (R76, R95). -/
def unitStopped (c : Chan) (cyc : Cycle) (bs : List Byte) (s : State) : State :=
  boundary c (unitCounted cyc.addr ((moveUnit c bs cyc.addr s).1.putChan c { (s.chan c).afterUnit (moveUnit c bs cyc.addr s).2 cyc with
    mask := true, soft := false, blockRun := false, state := .stopping .idle }))

theorem unitStopped_chan (c : Chan) (cyc : Cycle) (bs : List Byte) (s : State) : (unitStopped c cyc bs s).chan c =
    { (s.chan c).afterUnit (moveUnit c bs cyc.addr s).2 cyc with mask := true, soft := false, blockRun := false, state := .stopping .idle } :=
  (boundary_chan c c _).trans ((State.putChan_chan ..).trans (if_pos rfl))

theorem unitStopped_within (c : Chan) (cyc : Cycle) (bs : List Byte) (s : State) :
    Within { slot := true, arb := true, dma := true, staging := true, order := true } s (unitStopped c cyc bs s) ∧
    (unitStopped c cyc bs s).staging = (moveUnit c bs cyc.addr s).1.staging ∧
    (unitStopped c cyc bs s).order = (moveUnit c bs cyc.addr s).1.order := by
  have hcount (a : Nat) (u : State) : Within { slot := true, arb := true } u (unitCounted a u) := by
    constructor <;> intro hk <;> first | rfl | cases hk
  have hafter := ((putChan_within c { (s.chan c).afterUnit (moveUnit c bs cyc.addr s).2 cyc with
    mask := true, soft := false, blockRun := false, state := .stopping .idle } (moveUnit c bs cyc.addr s).1).seq (hcount cyc.addr _)
      (k := { slot := true, arb := true, dma := true })).seq (boundary_within c _) (k := { slot := true, arb := true, dma := true })
  exact ⟨(moveUnit_within c bs cyc.addr s).seq hafter, hafter.staging rfl, hafter.order rfl⟩

section

variable {s : State} {c : Chan} {cyc : Cycle} {bs : List Byte} (hd : cyc.discard = false) (htc : cyc.tc = false)
  (hs : (s.chan c).state = .active) (hf : (moveUnit c bs cyc.addr s).2 ≠ none) (hstop : (s.chan c).stopOnFault = true)

include hd htc hs hf hstop

theorem endUnitCycle_stops : endUnitCycle c cyc bs s = kickBus (enterStopping c .idle (unitStopped c cyc bs s)) := by
  rw [endUnitCycle_eq hd, performUnit_stops htc hs hf hstop]
  have hstate : ((unitCounted cyc.addr ((moveUnit c bs cyc.addr s).1.putChan c { (s.chan c).afterUnit (moveUnit c bs cyc.addr s).2 cyc with
      mask := true, soft := false, blockRun := false, state := .stopping .idle })).chan c).state = .stopping .idle :=
    congrArg Channel.state ((State.putChan_chan (moveUnit c bs cyc.addr s).1 c c { (s.chan c).afterUnit (moveUnit c bs cyc.addr s).2 cyc with
      mask := true, soft := false, blockRun := false, state := .stopping .idle }).trans (if_pos rfl))
  exact continueDma_stopping hstate

theorem endUnitCycle_stopped_stage_other {d : Chan} (hdc : d ≠ c) : (endUnitCycle c cyc bs s).stage d = s.stage d := by
  rw [endUnitCycle_stops hd htc hs hf hstop, kickBus_stage, enterStopping_stage_other hdc]
  exact (stage_of_staging (unitStopped_within c cyc bs s).2.1 d).trans ((moveUnit_only c bs cyc.addr s).stage d hdc)

end

theorem stopEntered_stagedCount {c : Chan} {d : Dest} {s : State} (h : (s.chan c).dir = .toMemory) :
    stagedCount c (stopEntered c d s) = stagedCount c s := by
  by_cases hm : (s.chan c).mode = .master
  · rw [stopEntered, if_pos hm, stagedCount_putChan]
  · rw [stopEntered_toMemory hm h, flushDemand_stagedCount, stagedCount_putChan]

theorem stagedCount_congr {c : Chan} {s t : State} (hs : t.stage c = s.stage c) (ho : t.order = s.order) : stagedCount c t = stagedCount c s := by
  rw [stagedCount, hs, ho]
  rfl

theorem kickBus_stagedCount (c : Chan) (s : State) : stagedCount c (kickBus s) = stagedCount c s :=
  stagedCount_congr (kickBus_stage s c) ((kickBus_within s).order rfl)

theorem enterStopping_stagedCount {c : Chan} {d : Dest} {s : State} (h : (s.chan c).dir = .toMemory) :
    stagedCount c (enterStopping c d s) = stagedCount c s :=
  (stagedCount_congr (enterStopping_stage_own (by rw [h]; nofun)) (endStopping_order c _)).trans (stopEntered_stagedCount h)

/-- The runs of a channel that stops are decided at once (R77, R108). -/
theorem enterStopping_flushes {c : Chan} {d : Dest} {s : State} (hm : (s.chan c).mode ≠ .master) (hd : (s.chan c).dir = .toMemory) :
    ((enterStopping c d s).stage c).opened = none ∧ (enterStopping c d s).order = s.order ++ (match (s.stage c).opened with
      | some r => [.write (.run c) r.hostFirst r.bytes]
      | none => []) := by
  have hto : stagesToMemory ((s.putChan c { s.chan c with mask := true, state := .stopping d }).chan c) = true := by
    rw [State.putChan_chan, if_pos rfl]
    exact (stagesToMemory_iff _).2 ⟨hd, hm⟩
  rw [enterStopping_stage_own (by rw [hd]; nofun)]
  have horder : (enterStopping c d s).order = (stopEntered c d s).order := endStopping_order c _
  rw [horder, stopEntered_toMemory hm hd]
  refine ⟨flushDemand_opened_same hto, ?_⟩
  have hrun : flushedRun (s.putChan c { s.chan c with mask := true, state := .stopping d }) c = (match (s.stage c).opened with
      | some r => [.write (.run c) r.hostFirst r.bytes]
      | none => []) := by
    have hst : (s.putChan c { s.chan c with mask := true, state := .stopping d }).stage c = s.stage c := rfl
    rw [flushedRun, hto, hst]
    cases (s.stage c).opened <;> rfl
  rw [flushDemand_order, hrun]
  rfl

/-- The end of a unit that the last clock of its cycle ends with ready high. -/
theorem exec_unitCycleEnd {s : State} {cyc : Cycle} {c : Chan} (data : BusWord) (hc : s.slot.cycle = some cyc) (hp : cyc.phase = .running)
    (hk : cyc.kind = .unit) (ho : cyc.owner = .dma c) :
    exec (.unitCycleEnd true data) s = .next (endUnitCycle c cyc (busBytes data) s) := by
  refine congrArg Host.Outcome.next ((lastClock_ends hc hp (by simp [unitCycleOf, ho, BusOwner.isDma])).trans ?_)
  rw [Cycle.sensed_of_other (.inl (by rw [hk]; decide))]
  simp only [endCycle, ho]

theorem afterUnit_takes {o : Lookup} (ho : o = .miss ∨ o = .denied) {cyc : Cycle} (hr : cyc.ready = false) (hc : cyc.check = false)
    (ch : Channel) : TakesFaults (mapFlag o) cyc.addr ch (ch.afterUnit (mapFault o) cyc) := by
  rw [Channel.afterUnit, readyOf, checkOf, hr, hc]
  exact mapFault_takes ho cyc.addr ch

theorem afterUnit_same {cyc : Cycle} (hr : cyc.ready = false) (hc : cyc.check = false) (ch : Channel) :
    SameFaults ch (ch.afterUnit none cyc) := by
  rw [Channel.afterUnit, readyOf, checkOf, hr, hc]
  exact .refl ch

theorem limitHolds_of_not_waiting {s : State} (h : s.arb.hostWaiting = false) : limitHolds s = false := by rw [limitHolds, h, Bool.false_and]

/-- A unit of a VERIFY channel follows where the mode goes on and nothing asks for the bus (R72, R83). -/
theorem unitGoesOn_verify {c : Chan} {tc : Bool} {s : State} (hd : (s.chan c).dir = .verify) (hs : (s.chan c).state = .active)
    (hm : modeGoesOn c tc s = true) (hr : s.refresh.owed = 0) (hw : s.arb.hostWaiting = false) : unitGoesOn c tc s = true := by
  have hserve : canServe c s = true := by
    rw [canServe, hd]
    exact ite_self true
  rw [unitGoesOn, hs, hm, hr, hserve, limitHolds_of_not_waiting hw]
  rfl

theorem modeGoesOn_demand {c : Chan} {tc : Bool} {s : State} (hm : (s.chan c).mode = .demand) (hdr : s.pins.dreq.get c = true)
    (hl : s.slot.line ≠ .asserted) : modeGoesOn c tc s = true := by
  simp [modeGoesOn, requestActive, hm, hdr, hl]

theorem unitGoesOn_refresh {c : Chan} {tc : Bool} {s : State} (h : 0 < s.refresh.owed) : unitGoesOn c tc s = false := by
  simp [unitGoesOn, Nat.pos_iff_ne_zero.1 h]

theorem unitCycle_verify {c : Chan} {s : State} (h : (s.chan c).dir = .verify) : unitCycle c s =
    { kind := .unit, owner := .dma c, use := .transfer .verify, addr := unitAddr c (s.chan c), waits := 0, sense := none, phase := .running
      ready := false, check := false, tc := (s.chan c).curCount = 0, drive := [], discard := false } := by
  simp only [unitCycle, h]
  rfl

theorem afterUnit_state (ch : Channel) (o : Option ChanFault) (cyc : Cycle) : (ch.afterUnit o cyc).state = ch.state := by
  rw [Channel.afterUnit_eq]

/-- After a unit that takes no fault of its cycle the channel has the bus still, or is STOPPING. -/
theorem performUnit_state {c : Chan} {cyc : Cycle} {bs : List Byte} {s : State} (htc : cyc.tc = false) (hs : (s.chan c).state = .active)
    (hr : cyc.ready = false) (hck : cyc.check = false) :
    ((performUnit c cyc bs s).chan c).state = .active ∨ ∃ d, ((performUnit c cyc bs s).chan c).state = .stopping d := by
  by_cases hkeep : (moveUnit c bs cyc.addr s).2 = none ∨ (s.chan c).stopOnFault = false
  · rw [performUnit_goesOn htc (hkeep.imp (fun h => ⟨h, hr, hck⟩) id), unitMoved_chan, afterUnit_state]
    exact .inl hs
  · obtain ⟨hf, hstop⟩ := not_or.1 hkeep
    rw [performUnit_stops htc hs hf (by simpa using hstop), State.putChan_chan, if_pos rfl]
    exact .inr ⟨_, rfl⟩

theorem placedState_ne_active (c : Chan) (s : State) : placedState c s ≠ .active := by
  unfold placedState
  split
  · split <;> nofun
  · nofun

theorem endStopping_not_active {c : Chan} {s : State} (h : (s.chan c).state ≠ .active) : ((endStopping c s).chan c).state ≠ .active := by
  have hcheck (x : State) : (maskCheck x).chan c = x.chan c := congrArg (fun g => g.chans.get c) ((maskCheck_within x).dma rfl)
  rcases endStopping_cases c s with hc | ⟨d, hc⟩ <;> rw [hc]
  · exact h
  rw [hcheck]
  have hput : (s.putChan c { s.chan c with state := d.state }).chan c = { s.chan c with state := d.state } :=
    (State.putChan_chan ..).trans (if_pos rfl)
  rcases waitingClear_cases c (s.putChan c { s.chan c with state := d.state }) with hw | ⟨w, hw⟩ <;> rw [hw]
  · rw [hput]
    cases d <;> nofun
  · have hrest : ((setWork w (s.putChan c { s.chan c with state := d.state })).chan c).state = .idle ∨
        ((setWork w (s.putChan c { s.chan c with state := d.state })).chan c).state = .finished := by
      have hset : (setWork w (s.putChan c { s.chan c with state := d.state })).chan c = _ := hput
      rw [hset]
      cases d
      · exact .inl rfl
      · exact .inr rfl
    rw [clearMask_state hrest]
    split
    · split <;> nofun
    · nofun

/-- The end of a tenure takes the channel out of ACTIVE. -/
theorem endDmaTenure_not_active {c : Chan} {s : State} (h : (s.chan c).state = .active ∨ ∃ d, (s.chan c).state = .stopping d) :
    ((endDmaTenure c s).chan c).state ≠ .active := by
  rcases h with h | ⟨d, h⟩
  · rw [endDmaTenure_active h, placeChan_state (by rw [State.putChan_chan, if_pos rfl]; rfl)]
    exact placedState_ne_active c _
  · have hent := stopEntered_chan c d (boundary c s)
    rw [endDmaTenure_stopping h, enterStopping_entered]
    exact endStopping_not_active (s := stopEntered c d (boundary c s)) (by rw [hent]; nofun)

theorem kickBus_refresh {s : State} (hf : s.arb.owner = .free) (hl : s.slot.line ≠ .asserted) (hr : 0 < s.refresh.owed) :
    kickBus s = grantRefresh (s.putSlot { s.slot with clock := setClock s.settings }) := by
  rw [kickBus_grant hf hl]
  exact grant_refresh hr

/-- Settles O16: the unit's bytes and its channel's record, and the tenure that goes on or ends. -/
theorem unitCycleEndStepsTheChannel : Obligations.UnitCycleEndStepsTheChannel := by
  intro s cyc c data hc hp hk ho hdisc hr hck htc harb hs
  have hexec := exec_unitCycleEnd data hc hp hk ho
  have hunit := endUnitCycle_unmasked (bs := busBytes data) hdisc htc hs
  refine ⟨⟨_, hexec, (endUnitCycle_within c cyc _ s).mono (by decide), fun d hd => ?others, fun hdir => ?verify, fun e h hdir hl => ?found,
    fun o hdir hl hmd => ?dropped, fun k ks xs hdir hchunks hdata => ?consumed⟩, fun hdir hm hdr hl href hw => ?goesOn, fun href hl => ?refresh⟩
  case others =>
    by_cases hkeep : (moveUnit c (busBytes data) cyc.addr s).2 = none ∨ (s.chan c).stopOnFault = false
    · rw [stage_of_staging (hunit (hkeep.imp (fun h => ⟨h, hr, hck⟩) id)).2.1]
      exact (moveUnit_only c _ _ s).stage d hd
    · obtain ⟨hf, hstop⟩ := not_or.1 hkeep
      exact endUnitCycle_stopped_stage_other hdisc htc hs hf (by simpa using hstop) hd
  case verify =>
    have hmove := moveUnit_verify (bs := busBytes data) (l := cyc.addr) hdir
    obtain ⟨horder, hstaging, hstarve, hrec⟩ := hunit (.inl ⟨by rw [hmove], hr, hck⟩)
    rw [hmove] at horder hstaging hstarve
    have hsame := (afterUnit_same hr hck (s.chan c)).trans (hstarve.same (by rw [Channel.afterUnit_eq]; rw [hdir]; nofun))
    rw [hrec]
    exact ⟨hstaging, horder, hsame.1, rfl, rfl, rfl, rfl⟩
  case found =>
    have hmove := moveUnit_found (bs := busBytes data) hdir hl
    obtain ⟨horder, hstaging, hstarve, hrec⟩ := hunit (.inl ⟨by rw [hmove], hr, hck⟩)
    rw [hmove] at horder hstaging hstarve
    have hsame := (afterUnit_same hr hck (s.chan c)).trans (hstarve.same (by rw [Channel.afterUnit_eq]; rw [hdir]; nofun))
    refine ⟨(placeFound_placed c _ cyc.addr e h s).of_eq horder (stage_of_staging hstaging c), hsame.1, hsame.2.2.1, ?_, ?_⟩ <;> rw [hrec]
  case dropped =>
    have hmove := moveUnit_dropped (bs := busBytes data) hdir hl hmd
    have htakes := afterUnit_takes hmd hr hck (s.chan c)
    by_cases hstop : (s.chan c).stopOnFault = true
    · have hf : (moveUnit c (busBytes data) cyc.addr s).2 ≠ none := by rcases hmd with h | h <;> rw [hmove, h] <;> nofun
      have hends := endUnitCycle_stops (bs := busBytes data) hdisc htc hs hf hstop
      have hrec := unitStopped_chan c cyc (busBytes data) s
      obtain ⟨hw, hstaging, horder⟩ := unitStopped_within c cyc (busBytes data) s
      rw [hmove] at hrec hstaging horder
      have hdirw : ((unitStopped c cyc (busBytes data) s).chan c).dir = .toMemory := by
        rw [hrec, Channel.afterUnit_eq]
        exact hdir
      have hfaults := ((enterStopping_starves c .idle (unitStopped c cyc (busBytes data) s)).same (by rw [hdirw]; nofun)).trans (kickBus_faults _ c)
      rw [hrec] at hfaults
      rw [hends]
      refine ⟨htakes.same hfaults, ?_, fun h => absurd (hstop.symm.trans h) nofun, fun _ hm => ⟨?_, ?_, fun hnone => ?_⟩⟩
      · rw [kickBus_stagedCount, enterStopping_stagedCount hdirw]
        exact stagedCount_congr (stage_of_staging hstaging c) horder
      · have hfl := enterStopping_flushes (c := c) (d := .idle) (s := unitStopped c cyc (busBytes data) s)
          (by rw [hrec, Channel.afterUnit_eq]; exact hm) hdirw
        rw [kickBus_stage]
        exact hfl.1
      · have hfl := enterStopping_flushes (c := c) (d := .idle) (s := unitStopped c cyc (busBytes data) s)
          (by rw [hrec, Channel.afterUnit_eq]; exact hm) hdirw
        rw [(kickBus_within _).order rfl, hfl.2, horder, stage_of_staging hstaging c] <;> rfl
      · obtain ⟨hch, hmasked⟩ := enterStopping_chan (c := c) (d := .idle) (s := unitStopped c cyc (busBytes data) s)
          ((workOf_of_queue (hw.queue rfl)).trans hnone)
        have hready := ChanState.not_ready_of_masked hmasked
        have hfree : (enterStopping c .idle (unitStopped c cyc (busBytes data) s)).arb.owner = .free := by
          rw [(enterStopping_within ..).arb rfl, unitStopped, boundary_eq]
        rw [kickBus_chan hready, hch, hrec, Channel.afterUnit_eq]
        exact ⟨kickBus_owner_ne hfree hready, rfl, rfl, rfl, rfl, rfl⟩
    · have hno : (s.chan c).stopOnFault = false := by simpa using hstop
      obtain ⟨horder, hstaging, hstarve, hrec⟩ := hunit (.inr hno)
      rw [hmove] at horder hstaging hstarve
      have hst := stage_of_staging hstaging c
      refine ⟨htakes.same (hstarve.same (by rw [Channel.afterUnit_eq]; rw [hdir]; nofun)), stagedCount_congr hst horder,
        fun _ => ⟨horder, hst, by rw [hrec], by rw [hrec]⟩, fun h => absurd h hstop⟩
  case consumed =>
    have hmove := moveUnit_consumes (bs := busBytes data) (l := cyc.addr) hdir hchunks hdata
    obtain ⟨horder, hstaging, hstarve, hrec⟩ := hunit (.inl ⟨by rw [hmove], hr, hck⟩)
    rw [hmove] at horder hstaging
    refine ⟨horder, by rw [hrec], by rw [hrec], ?_⟩
    rw [stage_of_staging hstaging, State.putStage_stage, if_pos rfl]
  case goesOn =>
    have hmove := moveUnit_verify (bs := busBytes data) (l := cyc.addr) hdir
    have hperform : performUnit c cyc (busBytes data) s = s.putChan c (s.chan c).step := by
      rw [performUnit_goesOn htc (.inl ⟨by rw [hmove], hr, hck⟩), unitMoved, hmove, Channel.afterUnit, readyOf, checkOf, hr, hck]
      rfl
    rw [hexec, endUnitCycle_eq hdisc, hperform, htc]
    have hc : (unitCounted cyc.addr (s.putChan c (s.chan c).step)).chan c = (s.chan c).step := (State.putChan_chan ..).trans (if_pos rfl)
    have hgoes : unitGoesOn c false (unitCounted cyc.addr (s.putChan c (s.chan c).step)) = true :=
      unitGoesOn_verify (by rw [hc]; exact hdir) (by rw [hc]; exact hs) (modeGoesOn_demand (by rw [hc]; exact hm) hdr hl) href hw
    refine congrArg Host.Outcome.next ((continueDma_goesOn hgoes).trans ?_)
    have hput : (unitCounted cyc.addr (s.putChan c (s.chan c).step)).putChan c { (s.chan c).step with
        blockRun := (s.chan c).step.blockRun || decide ((s.chan c).step.mode = .block) } =
        unitCounted cyc.addr (s.putChan c (s.chan c).step) := by
      have hrun : ((s.chan c).step.blockRun || decide ((s.chan c).step.mode = .block)) = (s.chan c).step.blockRun := by
        rw [show (s.chan c).step.mode = .demand from hm]
        exact Bool.or_false _
      rw [hrun]
      exact congrArg (unitCounted cyc.addr) (putChan_putChan ..)
    rw [hc, hput, unitCycle_verify (by rw [hc]; exact hdir), hc]
    have htc' : decide ((s.chan c).step.curCount = 0) = decide ((s.chan c).curCount = 1) := by
      rw [decide_eq_decide]
      exact sub_eq_zero
    rw [htc']
    rfl
  case refresh =>
    have hstate : ((unitCounted cyc.addr (performUnit c cyc (busBytes data) s)).chan c).state = .active ∨
        ∃ d, ((unitCounted cyc.addr (performUnit c cyc (busBytes data) s)).chan c).state = .stopping d :=
      performUnit_state htc hs hr hck
    have hwithin := performUnit_within c cyc (busBytes data) s
    obtain ⟨hfree, hslot, hre, -, hset⟩ := endDmaTenure_bus hstate
    have hgrant := kickBus_refresh (s := endDmaTenure c (unitCounted cyc.addr (performUnit c cyc (busBytes data) s))) (by rw [hfree])
      (by rw [hslot]; exact fun k => hl ((congrArg SlotEngine.line (hwithin.slot rfl)).symm.trans k))
      (by rw [hre]; exact (congrArg Refresh.owed (hwithin.refresh rfl)).symm ▸ href)
    have hends : endUnitCycle c cyc (busBytes data) s =
        kickBus (endDmaTenure c (unitCounted cyc.addr (performUnit c cyc (busBytes data) s))) := by
      refine (endUnitCycle_eq hdisc).trans (continueDma_ends (unitGoesOn_refresh ?_))
      exact (congrArg Refresh.owed (hwithin.refresh rfl)).symm ▸ href
    refine ⟨_, hexec, ?_, ?_, ?_, ?_⟩
    · rw [hends, hgrant]
      rfl
    · rw [hends, hgrant]
      exact endDmaTenure_not_active hstate
    · rw [hends, hgrant]
      show setClock _ = _
      rw [hset]
      exact congrArg setClock (hwithin.settings rfl)
    · rw [hends, hgrant]
      refine ⟨_, rfl, rfl, ?_⟩
      show (endDmaTenure c _).refresh.row.toNat = _
      rw [hre]
      exact congrArg (fun r => r.row.toNat) (hwithin.refresh rfl)

end Sys2Proof.Machine
end

section
/-! PROOF. The ready limit (R11, R12, R31, R32, R94, R121, R124) and the terminal count (R91, R108, R115). -/

namespace Sys2Proof.Machine

set_option Elab.async false

/-! ## The ready limit (R11) -/

theorem readyExpiry_extended {s : State} {cyc : Cycle} (hc : s.slot.cycle = some cyc) (hp : cyc.phase = .extended) :
    readyExpiry s = expireCycle cyc s := by simp only [readyExpiry, hc, hp, if_true]

theorem busBytes_ones : busBytes 0xFFFF = [0xFF, 0xFF] := by decide

theorem take_ones (c : Chan) : (busBytes 0xFFFF).take c.unit = List.replicate c.unit 0xFF := by
  rw [busBytes_ones]
  cases c <;> rfl

theorem kickBus_slotFault (s : State) : (kickBus s).slot.slotFault = s.slot.slotFault := by
  obtain ⟨cyc, rt, ck, h⟩ := kickBus_slot s
  rw [h]

/-- What a refresh cycle's end leaves of the SLOT FAULT, the row and the owed count. -/
theorem endRefreshCycle_pays (cyc : Cycle) (s : State) : (endRefreshCycle cyc s).slot.slotFault = s.slot.slotFault ∧
    (endRefreshCycle cyc s).refresh.row = s.refresh.row + 1 ∧ (endRefreshCycle cyc s).refresh.owed = s.refresh.owed - 1 := by
  unfold endRefreshCycle
  dsimp only
  split
  · rw [kickBus_slotFault, (kickBus_within _).refresh rfl]
    exact ⟨rfl, rfl, rfl⟩
  · exact ⟨rfl, rfl, rfl⟩

/-- The faults of a unit whose cycle the ready limit ends, after a fault of the map or with none. -/
theorem afterUnit_expired (ch : Channel) (cyc : Cycle) :
    TakesFaults (0x01 ||| (if cyc.check then 0x02 else 0)) cyc.addr ch (ch.afterUnit none { cyc with ready := true }) := by
  have h := (withFault_takes .ready cyc.addr ch.step).tells (checkOf cyc)
  have hflag : ((checkOf cyc).map ChanFault.flag).getD 0 = if cyc.check then 0x02 else 0 := by
    unfold checkOf
    cases cyc.check <;> rfl
  rw [hflag] at h
  exact h.before ch.step_faults

theorem afterUnit_expired_dropped {o : Lookup} (ho : o = .miss ∨ o = .denied) (ch : Channel) (cyc : Cycle) :
    TakesFaults (mapFlag o ||| 0x01 ||| (if cyc.check then 0x02 else 0)) cyc.addr ch (ch.afterUnit (mapFault o) { cyc with ready := true }) := by
  have hmap := (mapFault_takes ho cyc.addr ch).same (Channel.step_faults _)
  have h := (hmap.trans (withFault_takes .ready cyc.addr _)).tells (checkOf cyc)
  have hflag : ((checkOf cyc).map ChanFault.flag).getD 0 = if cyc.check then 0x02 else 0 := by
    unfold checkOf
    cases cyc.check <;> rfl
  rw [hflag] at h
  exact h

/-- The READY fault of a host-path cycle under HALT stops its request. -/
theorem Xfer.fault_halts {x : Xfer} (hr : x.report = false) (hf : x.firstFault = none) :
    x.fault .ready = { x with firstFault := some .ready, stopped := true } := by
  rw [Xfer.fault, hr, hf, Bool.not_false, Bool.or_true]
  rfl

/-- Settles O15: the owner of the cycle that the ready limit ends takes a READY fault. -/
theorem readyLimitFaultsTheOwner : Obligations.ReadyLimitFaultsTheOwner := by
  refine ⟨fun s cyc hc hp => ?_, fun s x hc hx => ?held⟩
  case held =>
    have hrun : readyExpiry s = expireHeld s := by simp only [readyExpiry, hc]
    refine ⟨_, congrArg Host.Outcome.next hrun, expireHeld_within s, ?_⟩
    have haddr : (addCause .ready x.addr s.master.owedFault).addr = (match s.master.owedFault with
        | some g => g.addr
        | none => x.addr) := by cases s.master.owedFault <;> rfl
    cases hk : x.kind with
    | write bs =>
      have hexpired : expireHeld s = masterFault .ready x.addr (s.putMaster { s.master with stretched := none }) := by
        simp only [expireHeld, hx, hk]
      rw [hexpired]
      exact ⟨rfl, rfl, rfl, ⟨_, rfl, addCause_ready _ _, haddr⟩, rfl⟩
    | read len bs =>
      have hexpired : expireHeld s = masterFault .ready x.addr (releaseCycle (some (allOnes len)) s) := by
        simp only [expireHeld, hx, hk]
      rw [hexpired]
      exact ⟨rfl, rfl, rfl, ⟨_, rfl, addCause_ready _ _, haddr⟩, rfl⟩
  have hexec : exec .readyLimitExpiry s = .next (expireCycle cyc s) := congrArg Host.Outcome.next (readyExpiry_extended hc hp)
  have hunit (c : Chan) (ho : cyc.owner = .dma c) : exec .readyLimitExpiry s =
      .next (endUnitCycle c { cyc with ready := true } (busBytes 0xFFFF) s) := by
    rw [hexec]
    simp only [expireCycle, endCycle, ho]
  have hkept {c : Chan} (hd : cyc.discard = false) (htc : cyc.tc = false) (hs : (s.chan c).state = .active)
      (hstop : (s.chan c).stopOnFault = false) := endUnitCycle_unmasked (s := s) (c := c) (cyc := { cyc with ready := true })
        (bs := busBytes 0xFFFF) hd htc hs (.inr hstop)
  refine ⟨fun ho hsf => ?refresh, fun x e ho hx hrep hfs hff he => ?halt, fun x x' n ho hx hrep hst hab hk hn hlt hx' => ?report,
    fun c ho hd htc hdir hs hstop => ?verify, fun c i h ho hd htc hdir hs hstop hl => ?found,
    fun c o ho hd htc hdir hs hstop hl hmd => ?dropped, fun c k ks xs ho hd htc hdir hs hstop hchunks hdata => ?consumed⟩
  case refresh =>
    have hrun : expireCycle cyc s = endRefreshCycle { cyc with ready := true } (oweSlotFault .ready true (some cyc.addr) s) := by
      simp only [expireCycle, endCycle, ho]
    obtain ⟨hf, hrow, howed⟩ := endRefreshCycle_pays { cyc with ready := true } (oweSlotFault .ready true (some cyc.addr) s)
    rw [hexec, hrun]
    refine ⟨_, rfl, (oweSlotFault_within ..).seq (endRefreshCycle_within ..), ?_, ?_, ?_⟩
    · rw [hf, oweSlotFault_eq, hsf]
      rfl
    · rw [hrow, (oweSlotFault_within ..).refresh rfl]
    · rw [howed, (oweSlotFault_within ..).refresh rfl]
  case halt =>
    let y : Xfer := { x with firstFault := some .ready, stopped := true }
    have hfault : faultXfer .ready s = { s with xfer := some y } := by rw [faultXfer, hx, Option.map_some, Xfer.fault_halts hrep hff]
    have hrun : expireCycle cyc s = endHostTenure y ({ s with xfer := some y }.putSlot { s.slot with lastAddr := some cyc.addr }) := by
      have hhost : expireCycle cyc s = endCycle { cyc with ready := true } 0xFFFF { s with xfer := some y } := by
        simp only [expireCycle, ho, hfault]
      have hsame : y.endCycle { cyc with ready := true } (busBytes 0xFFFF) = y := by
        rw [Xfer.endCycle]
        exact if_pos (by rw [show y.report = false from hrep]; rfl)
      rw [hhost, endCycle_host (x := y) (by exact ho) rfl, hsame, continueHost, if_pos (by simp [Xfer.over, y])]
    obtain ⟨u, hends, hwithin⟩ := endHostTenure_request (x := y)
      (s := { s with xfer := some y }.putSlot { s.slot with lastAddr := some cyc.addr }) hfs he
    rw [hexec, hrun]
    refine ⟨u, _, rfl, ?_, hwithin⟩
    have hrep' : y.report = false := hrep
    rw [hrep'] at hends
    exact hends
  case report =>
    have hsize : ({ cyc with ready := true } : Cycle).size = n := hn.symm
    have hcount : (x.fault .ready).endCycle { cyc with ready := true } (busBytes 0xFFFF) = x' := by
      have hfault : (x.fault .ready).endCycle { cyc with ready := true } (busBytes 0xFFFF) =
          (x.fault .ready).count n (busBytes 0xFFFF) true := by
        rw [Xfer.endCycle, hsize]
        exact if_neg (by simp [show (x.fault .ready).report = true from hrep])
      rw [hfault, hx', Xfer.fault, Xfer.count, hst, hrep]
      cases hff : x.firstFault <;> rfl
    have hover : x'.over = false := by
      have hleft : x.left - n ≠ 0 := by omega
      rw [hx']
      simp [Xfer.over, hst, hab, hleft]
    have hhost : expireCycle cyc s = endCycle { cyc with ready := true } 0xFFFF { s with xfer := some (x.fault .ready) } := by
      simp only [expireCycle, ho, faultXfer, hx, Option.map_some]
    rw [hexec, hhost, endCycle_host (x := x.fault .ready) (by exact ho) rfl, hcount, continueHost, if_neg (by rw [hover]; decide)]
    rfl
  case verify =>
    have hmove := moveUnit_verify (bs := busBytes 0xFFFF) (l := cyc.addr) hdir
    obtain ⟨horder, hstaging, hstarve, hrec⟩ := hkept hd htc hs hstop
    rw [hmove] at horder hstaging hstarve
    have hf := (afterUnit_expired (s.chan c) cyc).same (hstarve.same (by rw [Channel.afterUnit_eq]; rw [hdir]; nofun))
    refine ⟨_, hunit c ho, hstaging, horder, ?_, ?_, by rw [hrec]⟩
    · rw [BitVec.or_assoc]
      exact hf.1
    · rw [BitVec.or_assoc]
      exact hf.2.1
  case found =>
    have hmove := moveUnit_found (bs := busBytes 0xFFFF) hdir hl
    obtain ⟨horder, hstaging, hstarve, hrec⟩ := hkept hd htc hs hstop
    rw [hmove] at horder hstaging hstarve
    have hf := (afterUnit_expired (s.chan c) cyc).same (hstarve.same (by rw [Channel.afterUnit_eq]; rw [hdir]; nofun))
    refine ⟨_, hunit c ho, ?_, hf, by rw [hrec], by rw [hrec]⟩
    rw [← take_ones]
    exact (placeFound_placed c _ cyc.addr i h s).of_eq horder (stage_of_staging hstaging c)
  case dropped =>
    have hmove := moveUnit_dropped (bs := busBytes 0xFFFF) hdir hl hmd
    obtain ⟨horder, hstaging, hstarve, hrec⟩ := hkept hd htc hs hstop
    rw [hmove] at horder hstaging hstarve
    have hf := (afterUnit_expired_dropped hmd (s.chan c) cyc).same (hstarve.same (by rw [Channel.afterUnit_eq]; rw [hdir]; nofun))
    exact ⟨_, hunit c ho, horder, stage_of_staging hstaging c, hf, by rw [hrec], by rw [hrec]⟩
  case consumed =>
    have hmove := moveUnit_consumes (bs := busBytes 0xFFFF) (l := cyc.addr) hdir hchunks hdata
    obtain ⟨horder, hstaging, hstarve, hrec⟩ := hkept hd htc hs hstop
    rw [hmove] at horder hstaging hstarve
    have hf := afterUnit_expired (s.chan c) cyc
    refine ⟨_, hunit c ho, horder, ?_, hstarve.keeps_flag.1 ?_, hstarve.keeps_flag.2 ?_, fun h0 h1 => ?_, by rw [hrec], by rw [hrec]⟩
    · rw [stage_of_staging hstaging, State.putStage_stage, if_pos rfl]
    · rw [hf.1]
      simp
    · rw [hf.2.1]
      simp
    · rw [hstarve.keeps_first, hf.2.2.1, if_pos ⟨h0, h1⟩]
      rw [hf.1, h0]
      cases cyc.check <;> decide

/-! ## The channel's record at the terminal count (R91, R93) -/

theorem Channel.atTerminal_flags (ch : Channel) : ch.atTerminal.tcFlag = true ∧ ch.atTerminal.soft = false ∧ ch.atTerminal.blockRun = false ∧
    ch.atTerminal.dir = ch.dir ∧ ch.atTerminal.mode = ch.mode ∧ SameFaults ch ch.atTerminal ∧
    ch.atTerminal.tcOwed = (if ch.quiet then ch.tcOwed else min 255 (ch.tcOwed + 1)) ∧
    ch.atTerminal.nextTaken = (ch.nextTaken || (!ch.quiet && ch.nextBlock.isSome)) := by
  unfold Channel.atTerminal Channel.countTc
  cases hn : ch.nextBlock with
  | some b =>
    refine ⟨rfl, rfl, rfl, rfl, rfl, .refl _, rfl, ?_⟩
    cases ch.quiet <;> simp
  | none =>
    cases ha : ch.autoReload
    all_goals
      refine ⟨rfl, rfl, rfl, rfl, rfl, .refl _, rfl, ?_⟩
      cases ch.quiet <;> simp

theorem Channel.atTerminal_next {ch : Channel} {b : Block} (h : ch.nextBlock = some b) : ch.atTerminal.page = b.page ∧
    ch.atTerminal.baseAddr = b.addr ∧ ch.atTerminal.baseCount = b.count ∧ ch.atTerminal.curAddr = b.addr ∧
    ch.atTerminal.curCount = b.count ∧ ch.atTerminal.nextBlock = none ∧ ch.atTerminal.mask = ch.mask ∧ ch.atTerminal.state = ch.state ∧
    ch.atTerminal.autoReload = ch.autoReload := by
  simp only [Channel.atTerminal, h]
  exact ⟨rfl, rfl, rfl, rfl, rfl, rfl, rfl, rfl, rfl⟩

theorem Channel.atTerminal_reload {ch : Channel} (h : ch.nextBlock = none) (ha : ch.autoReload = true) : ch.atTerminal.page = ch.page ∧
    ch.atTerminal.baseAddr = ch.baseAddr ∧ ch.atTerminal.baseCount = ch.baseCount ∧ ch.atTerminal.curAddr = ch.baseAddr ∧
    ch.atTerminal.curCount = ch.baseCount ∧ ch.atTerminal.nextBlock = none ∧ ch.atTerminal.mask = ch.mask ∧ ch.atTerminal.state = ch.state ∧
    ch.atTerminal.autoReload = ch.autoReload := by
  simp only [Channel.atTerminal, h, ha, if_true]
  exact ⟨rfl, rfl, rfl, rfl, rfl, rfl, rfl, rfl, rfl⟩

theorem Channel.atTerminal_stops {ch : Channel} (h : ch.nextBlock = none) (ha : ch.autoReload = false) : ch.atTerminal.mask = true ∧
    ch.atTerminal.state = .stopping .finished ∧ ch.atTerminal.curAddr = ch.curAddr ∧ ch.atTerminal.curCount = ch.curCount := by
  simp only [Channel.atTerminal, h, ha]
  exact ⟨rfl, rfl, rfl, rfl⟩

/-- A channel with something to go on to keeps its mask and its state. -/
theorem Channel.atTerminal_goesOn {ch : Channel} (h : ch.nextBlock ≠ none ∨ ch.autoReload = true) :
    ch.atTerminal.mask = ch.mask ∧ ch.atTerminal.state = ch.state := by
  cases hn : ch.nextBlock with
  | some b =>
    obtain ⟨-, -, -, -, -, -, hm, hs, -⟩ := Channel.atTerminal_next hn
    exact ⟨hm, hs⟩
  | none =>
    obtain ⟨-, -, -, -, -, -, hm, hs, -⟩ := Channel.atTerminal_reload hn (h.resolve_left fun k => k hn)
    exact ⟨hm, hs⟩

/-! ## The terminal-count unit (R91, R108, R115) -/

/-- The terminal-count unit moved and counted, before what its direction asks for. -/
def terminalMoved (c : Chan) (a : Nat) (bs : List Byte) (s : State) : State := (moveUnit c bs a s).1.putChan c (s.chan c).step.atTerminal

/-- What the direction of the channel asks for at its terminal count. -/
def terminalDone (c : Chan) (a : Nat) (bs : List Byte) (s : State) : State :=
  match (s.chan c).dir with
  | .toMemory => flushDemand c (terminalMoved c a bs s)
  | .fromMemory => cursorSync c (terminalMoved c a bs s)
  | .verify => terminalMoved c a bs s

theorem terminalMoved_chan (c : Chan) (a : Nat) (bs : List Byte) (s : State) :
    (terminalMoved c a bs s).chan c = (s.chan c).step.atTerminal := (State.putChan_chan ..).trans (if_pos rfl)

theorem terminalDone_chan (c : Chan) (a : Nat) (bs : List Byte) (s : State) :
    (terminalDone c a bs s).chan c = (s.chan c).step.atTerminal := by
  have hc := terminalMoved_chan c a bs s
  unfold terminalDone
  cases (s.chan c).dir with
  | toMemory => exact (congrArg (fun g => g.chans.get c) ((flushDemand_within c _).dma rfl)).trans hc
  | fromMemory => exact (congrArg (fun g => g.chans.get c) ((cursorSync_within c _).dma rfl)).trans hc
  | verify => exact hc

theorem terminalDone_within (c : Chan) (a : Nat) (bs : List Byte) (s : State) :
    Within { dma := true, staging := true, order := true } s (terminalDone c a bs s) := by
  have hm : Within { dma := true, staging := true, order := true } s (terminalMoved c a bs s) :=
    (moveUnit_within c bs a s).seq (putChan_within _ _ _)
  unfold terminalDone
  cases (s.chan c).dir with
  | toMemory => exact hm.seq (flushDemand_within c _)
  | fromMemory => exact hm.seq (cursorSync_within c _)
  | verify => exact hm

section

variable {s : State} {c : Chan} {cyc : Cycle} {bs : List Byte} (hd : cyc.discard = false) (htc : cyc.tc = true)
  (hr : cyc.ready = false) (hck : cyc.check = false) (hm : (moveUnit c bs cyc.addr s).2 = none)

include hd htc hr hck hm

theorem endUnitCycle_terminal : endUnitCycle c cyc bs s = continueDma c true (unitCounted cyc.addr (terminalDone c cyc.addr bs s)) := by
  have hcount : terminalCount c ((moveUnit c bs cyc.addr s).1.putChan c (s.chan c).step) = terminalDone c cyc.addr bs s := by
    rw [terminalCount, State.putChan_chan, if_pos rfl, putChan_putChan]
    rfl
  have hperform : performUnit c cyc bs s = terminalDone c cyc.addr bs s := by
    unfold performUnit
    dsimp only
    rw [htc, hr, hck, hm, recordIf, moveUnit_chan]
    exact hcount
  rw [endUnitCycle_eq hd, hperform, htc]

/-- A channel that goes on keeps what its terminal count has made of its record and its staging. -/
theorem endUnitCycle_terminal_goesOn (hs : (s.chan c).state = .active) (hgo : (s.chan c).nextBlock ≠ none ∨ (s.chan c).autoReload = true) :
    (endUnitCycle c cyc bs s).order = (terminalDone c cyc.addr bs s).order ∧
    (endUnitCycle c cyc bs s).staging = (terminalDone c cyc.addr bs s).staging ∧
    (endUnitCycle c cyc bs s).chan c = { (s.chan c).step.atTerminal with
      state := ((endUnitCycle c cyc bs s).chan c).state, blockRun := ((endUnitCycle c cyc bs s).chan c).blockRun
      faults := ((endUnitCycle c cyc bs s).chan c).faults, firstFault := ((endUnitCycle c cyc bs s).chan c).firstFault
      owedFaults := ((endUnitCycle c cyc bs s).chan c).owedFaults, owedAddr := ((endUnitCycle c cyc bs s).chan c).owedAddr } := by
  have hc : (unitCounted cyc.addr (terminalDone c cyc.addr bs s)).chan c = (s.chan c).step.atTerminal := terminalDone_chan ..
  have hact : ((unitCounted cyc.addr (terminalDone c cyc.addr bs s)).chan c).state = .active := by
    rw [hc]
    exact (Channel.atTerminal_goesOn (ch := (s.chan c).step) hgo).2.trans hs
  have hrec := continueDma_active_chan (tc := true) hact
  have hw := continueDma_active_within (tc := true) hact
  rw [hc] at hrec
  rw [endUnitCycle_terminal hd htc hr hck hm]
  exact ⟨hw.order rfl, hw.staging rfl, hrec⟩

/-- A channel with nothing to go on to stops, and is DONE. -/
theorem endUnitCycle_terminal_stops (hn : (s.chan c).nextBlock = none) (ha : (s.chan c).autoReload = false) : endUnitCycle c cyc bs s =
    kickBus (enterStopping c .finished (boundary c (unitCounted cyc.addr (terminalDone c cyc.addr bs s)))) := by
  have hc : (unitCounted cyc.addr (terminalDone c cyc.addr bs s)).chan c = (s.chan c).step.atTerminal := terminalDone_chan ..
  obtain ⟨-, hstop, -⟩ := Channel.atTerminal_stops (ch := (s.chan c).step) hn ha
  rw [endUnitCycle_terminal hd htc hr hck hm]
  exact continueDma_stopping (by rw [hc]; exact hstop)

end

/-- The state in which a channel that is DONE gives the bus back. -/
theorem terminalBoundary (c : Chan) (a : Nat) (bs : List Byte) (s : State) :
    (boundary c (unitCounted a (terminalDone c a bs s))).chan c = (s.chan c).step.atTerminal ∧
    (boundary c (unitCounted a (terminalDone c a bs s))).stage c = (terminalDone c a bs s).stage c ∧
    (boundary c (unitCounted a (terminalDone c a bs s))).order = (terminalDone c a bs s).order ∧
    (boundary c (unitCounted a (terminalDone c a bs s))).queue = s.queue ∧
    (boundary c (unitCounted a (terminalDone c a bs s))).arb.owner = .free ∧
    (boundary c (unitCounted a (terminalDone c a bs s))).arb.masterChan = s.arb.masterChan := by
  have hb := boundary_within c (unitCounted a (terminalDone c a bs s))
  refine ⟨(boundary_chan ..).trans (terminalDone_chan ..), stage_of_staging (hb.staging rfl) c, hb.order rfl,
    (hb.queue rfl).trans ((terminalDone_within c a bs s).queue rfl), by rw [boundary_eq], ?_⟩
  rw [boundary_eq]
  exact (congrArg Arbiter.masterChan ((terminalDone_within c a bs s).arb rfl) :)

/-! ## TO MEMORY at the terminal count (R105, R108) -/

theorem joinedRun_length (ch : Channel) (r : Run) (bs : List Byte) (l h : Nat) :
    (joinedRun ch r bs l h).bytes.length = r.bytes.length + bs.length := by
  unfold joinedRun
  split <;> simp [Nat.add_comm]

theorem openBytes_some {st : Staging} {r : Run} (h : st.opened = some r) : openBytes st = r.bytes.length := by simp only [openBytes, h]

theorem openBytes_none {st : Staging} (h : st.opened = none) : openBytes st = 0 := by simp only [openBytes, h]

/-- A unit that the map takes stages its bytes, and what stood in the order stands ahead of what it decides. -/
theorem UnitPlaced.grows {c : Chan} {bs : List Byte} {l e h : Nat} {s t : State} (p : UnitPlaced c bs l e h s t) :
    stagedCount c t = stagedCount c s + bs.length ∧ s.order <+: t.order ∧ (t.stage c).marks = (s.stage c).marks := by
  obtain ⟨hnone, hsome⟩ := p
  have hcount (st st' : Staging) (n n' : Nat) (hc : st'.chunks = st.chunks) (h : openBytes st' + n' = openBytes st + n + bs.length) :
      openBytes st' + n' + (st'.chunks.map Chunk.staged).sum = openBytes st + n + (st.chunks.map Chunk.staged).sum + bs.length := by
    rw [hc]
    omega
  have hfresh (st : Staging) : openBytes { st with opened := some ⟨l, l + bs.length - 1, e, h, h + bs.length - 1, bs, 0⟩ } = bs.length := rfl
  cases ho : (s.stage c).opened with
  | none =>
    obtain ⟨horder, hstage⟩ := hnone ho
    rw [stagedCount, stagedCount, hstage, horder]
    exact ⟨hcount _ _ _ _ rfl (by rw [hfresh, openBytes_none ho]; omega), List.prefix_rfl, rfl⟩
  | some r =>
    obtain ⟨hfull, hopen, hapart⟩ := hsome r _ ho rfl
    have hlen := joinedRun_length (s.chan c) r bs l h
    by_cases hj : JoinsRun (s.chan c) r bs.length l e h
    · by_cases hf : RunFull (s.chan c) (s.map.toList.getD e ⟨0, 0, 0, 0⟩) (joinedRun (s.chan c) r bs l h)
      · obtain ⟨horder, hstage⟩ := hfull hj hf
        rw [stagedCount, stagedCount, hstage, horder, decidedBytes_append, decidedBytes_run, if_pos rfl, hlen]
        exact ⟨hcount _ _ _ _ rfl (by rw [openBytes_some ho, openBytes_none rfl]; omega), List.prefix_append .., rfl⟩
      · obtain ⟨horder, hstage⟩ := hopen hj hf
        rw [stagedCount, stagedCount, hstage, horder]
        exact ⟨hcount _ _ _ _ rfl (by rw [openBytes_some ho, openBytes_some rfl, hlen]; omega), List.prefix_rfl, rfl⟩
    · obtain ⟨horder, hstage⟩ := hapart hj
      rw [stagedCount, stagedCount, hstage, horder, decidedBytes_append, decidedBytes_run, if_pos rfl]
      exact ⟨hcount _ _ _ _ rfl (by rw [openBytes_some ho, hfresh]; omega), List.prefix_append .., rfl⟩

theorem take_unit (c : Chan) (data : BusWord) : ((busBytes data).take c.unit).length = c.unit := by cases c <;> rfl

theorem unit_ne_zero (c : Chan) : c.unit ≠ 0 := by cases c <;> decide

/-- A TO MEMORY channel's terminal-count unit: every byte staged is demanded, and its open run is decided. -/
theorem terminalDone_toMemory {c : Chan} {a i h : Nat} {data : BusWord} {s : State} (hd : (s.chan c).dir = .toMemory)
    (hm : (s.chan c).mode ≠ .master) (hl : lookupMap s.map a .write = .found i h) :
    let t := terminalDone c a (busBytes data) s
    (t.stage c).opened = none ∧ (t.stage c).marks = (s.stage c).marks ++ [stagedCount c s + c.unit] ∧
    stagedCount c t = stagedCount c s + c.unit ∧ s.order <+: t.order ∧ ((s.stage c).opened = none →
      t.order = s.order ++ [.write (.run c) h ((busBytes data).take c.unit)]) := by
  have hplaced := placeFound_placed c ((busBytes data).take c.unit) a i h s
  obtain ⟨hcount, hprefix, hmarks⟩ := hplaced.grows
  rw [take_unit] at hcount
  let m := (placeFound c ((busBytes data).take c.unit) a i h s).putChan c (s.chan c).step.atTerminal
  have hdone : terminalDone c a (busBytes data) s = flushDemand c m := by
    rw [terminalDone, hd]
    dsimp only
    rw [terminalMoved, moveUnit_found hd hl]
  have hto : stagesToMemory (m.chan c) = true := by
    obtain ⟨-, -, -, hdir, hmode, -⟩ := Channel.atTerminal_flags (s.chan c).step
    rw [show m.chan c = (s.chan c).step.atTerminal from (State.putChan_chan ..).trans (if_pos rfl)]
    exact (stagesToMemory_iff _).2 ⟨hdir.trans hd, fun k => hm (hmode.symm.trans k)⟩
  have hmcount : stagedCount c m = stagedCount c s + c.unit := hcount
  have hne : stagedCount c m ≠ 0 := by have := unit_ne_zero c; omega
  dsimp only
  rw [hdone]
  refine ⟨flushDemand_opened_same hto, ?_, (flushDemand_stagedCount c m).trans hmcount, ?_, fun ho => ?_⟩
  · rw [flushDemand_marks hto, if_neg hne, hmcount]
    exact congrArg (· ++ _) hmarks
  · rw [flushDemand_order]
    exact hprefix.trans (List.prefix_append ..)
  · obtain ⟨horder, hstage⟩ := hplaced.1 ho
    have hopened : (m.stage c).opened = some ⟨a, a + ((busBytes data).take c.unit).length - 1, i, h,
        h + ((busBytes data).take c.unit).length - 1, (busBytes data).take c.unit, 0⟩ := congrArg Staging.opened hstage
    rw [flushDemand_order, flushedRun, hopened, hto]
    exact congrArg (· ++ [OrderItem.write (.run c) h ((busBytes data).take c.unit)]) horder

/-- A channel with bytes staged stays STOPPING until they are issued (R77). -/
theorem enterStopping_staged {c : Chan} {d : Dest} {s : State} (hd : (s.chan c).dir = .toMemory) (hm : (s.chan c).mode ≠ .master)
    (hn : stagedCount c s ≠ 0) : enterStopping c d s = stopEntered c d s := by
  have hent := stopEntered_chan c d s
  have hstill : stillStopping c (stopEntered c d s) = true := by
    have hto : stagesToMemory ((stopEntered c d s).chan c) = true := by
      rw [hent]
      exact (stagesToMemory_iff _).2 ⟨hd, hm⟩
    rw [stillStopping, hto, stopEntered_stagedCount hd]
    simp [hn]
  rw [enterStopping_entered, endStopping, hent]
  exact if_pos hstill

/-! ## FROM MEMORY at the terminal count (R113, R115) -/

/-- A clear that waited begins the buffer anew, so what a discard has emptied stays empty (R111, R117). -/
theorem endStopping_chunks {c : Chan} {s : State} (hd : (s.chan c).dir = .fromMemory) (h : (s.stage c).chunks = []) :
    ((endStopping c s).stage c).chunks = [] := by
  have hcheck (x : State) : (maskCheck x).stage c = x.stage c := stage_of_staging ((maskCheck_within x).staging rfl) c
  rcases endStopping_cases c s with hc | ⟨e, hc⟩ <;> rw [hc]
  · exact h
  rw [hcheck]
  rcases waitingClear_cases c (s.putChan c { s.chan c with state := e.state }) with hw | ⟨w, hw⟩ <;> rw [hw]
  · exact h
  · have hput : (setWork w (s.putChan c { s.chan c with state := e.state })).chan c = { s.chan c with state := e.state } :=
      (State.putChan_chan ..).trans (if_pos rfl)
    have hrest : ((setWork w (s.putChan c { s.chan c with state := e.state })).chan c).state = .idle ∨
        ((setWork w (s.putChan c { s.chan c with state := e.state })).chan c).state = .finished := by
      rw [hput]
      cases e
      · exact .inl rfl
      · exact .inr rfl
    rw [clearMask_stage hrest]
    exact (unmasking_stage (by rw [(Channel.resumes_keeps _).2.1, hput]; exact hd)).1

theorem stopEntered_fromMemory {c : Chan} {d : Dest} {s : State} (hm : (s.chan c).mode ≠ .master) (hd : (s.chan c).dir = .fromMemory) :
    stopEntered c d s = discardPrefetch c (s.putChan c { s.chan c with mask := true, state := .stopping d }) := by
  rw [stopEntered, if_neg hm, hd]

theorem enterStopping_discards {c : Chan} {d : Dest} {s : State} (hm : (s.chan c).mode ≠ .master) (hd : (s.chan c).dir = .fromMemory) :
    ((enterStopping c d s).stage c).chunks = [] ∧ (enterStopping c d s).order = s.order := by
  have hent := stopEntered_chan c d s
  refine ⟨endStopping_chunks (s := stopEntered c d s) (by rw [hent]; exact hd) ?_, (endStopping_order c (stopEntered c d s)).trans ?_⟩
  · rw [stopEntered_fromMemory hm hd]
    exact congrArg Staging.chunks ((State.putStage_stage ..).trans (if_pos rfl))
  · rw [stopEntered_fromMemory hm hd]
    rfl

/-- No clear takes the TC flag away (R91). -/
theorem endStopping_tcFlag (c : Chan) (s : State) : ((endStopping c s).chan c).tcFlag = (s.chan c).tcFlag := by
  have hcheck (x : State) : (maskCheck x).chan c = x.chan c := congrArg (fun g => g.chans.get c) ((maskCheck_within x).dma rfl)
  rcases endStopping_cases c s with hc | ⟨e, hc⟩ <;> rw [hc]
  rw [hcheck]
  have hput : (s.putChan c { s.chan c with state := e.state }).chan c = { s.chan c with state := e.state } :=
    (State.putChan_chan ..).trans (if_pos rfl)
  rcases waitingClear_cases c (s.putChan c { s.chan c with state := e.state }) with hw | ⟨w, hw⟩ <;> rw [hw]
  · rw [hput]
  · have hset : (setWork w (s.putChan c { s.chan c with state := e.state })).chan c = _ := hput
    have hflag (ch : Channel) : ch.resumes.tcFlag = ch.tcFlag := by
      unfold Channel.resumes Channel.loadCounts
      split
      · split <;> rfl
      · rfl
    have hrest : ((setWork w (s.putChan c { s.chan c with state := e.state })).chan c).state = .idle ∨
        ((setWork w (s.putChan c { s.chan c with state := e.state })).chan c).state = .finished := by
      rw [hset]
      cases e
      · exact .inl rfl
      · exact .inr rfl
    rw [clearMask_chan hrest]
    exact (hflag _).trans (congrArg Channel.tcFlag hset :)

theorem kickBus_tcFlag (s : State) (c : Chan) : ((kickBus s).chan c).tcFlag = (s.chan c).tcFlag := by rw [kickBus_chan_eq]

/-- The prefetch cursor where the channel has passed the cursor's terminal count (R115). -/
theorem terminalDone_fromMemory {c : Chan} {a : Nat} {bs : List Byte} {s : State} {k : Chunk} {ks ks' : List Chunk} {xs : List Host.Cell}
    (hd : (s.chan c).dir = .fromMemory) (hc : (s.stage c).chunks = k :: ks) (hk : k.data = some xs)
    (hks : ks' = (if xs.length ≤ c.unit then ks else { k with data := some (xs.drop c.unit) } :: ks)) :
    (terminalDone c a bs s).order = s.order ∧ ((s.stage c).cursor.passed = .no →
      (terminalDone c a bs s).stage c = { s.stage c with chunks := ks' }) ∧
    ((s.stage c).cursor.passed ≠ .no → (terminalDone c a bs s).stage c = { s.stage c with
      chunks := ks'.map (fun k' => { k' with beyond := false })
      cursor := if (s.stage c).cursor.state = .waitingAhead then
          cursorAtTerminal (s.chan c).step.atTerminal { (s.stage c).cursor with passed := .no }
        else { (s.stage c).cursor with passed := .no } }) := by
  let m := (s.putStage c { s.stage c with chunks := ks' }).putChan c (s.chan c).step.atTerminal
  have hmst : m.stage c = { s.stage c with chunks := ks' } := (State.putStage_stage ..).trans (if_pos rfl)
  have hmch : m.chan c = (s.chan c).step.atTerminal := (State.putChan_chan ..).trans (if_pos rfl)
  have hdone : terminalDone c a bs s = cursorSync c m := by
    rw [terminalDone, hd]
    dsimp only
    rw [terminalMoved, moveUnit_consumes hd hc hk, ← hks]
  rw [hdone]
  refine ⟨(cursorSync_within c m).order rfl, fun hp => ?_, fun hp => ?_⟩
  · have hstay : cursorSync c m = m := if_pos (by rw [hmst]; exact hp)
    rw [hstay, hmst]
  · have hsync : cursorSync c m = m.putStage c { m.stage c with
        chunks := (m.stage c).chunks.map (fun k => { k with beyond := false })
        cursor := if (m.stage c).cursor.state = .waitingAhead then cursorAtTerminal (m.chan c) { (m.stage c).cursor with passed := .no }
          else { (m.stage c).cursor with passed := .no } } := if_neg (by rw [hmst]; exact hp)
    rw [hsync, State.putStage_stage, if_pos rfl, hmst, hmch]

/-! ## VERIFY at the terminal count (R85, R86, R91) -/

theorem terminalDone_verify {c : Chan} {a : Nat} {bs : List Byte} {s : State} (hd : (s.chan c).dir = .verify) :
    terminalDone c a bs s = s.putChan c (s.chan c).step.atTerminal := by
  rw [terminalDone, hd]
  dsimp only
  rw [terminalMoved, moveUnit_verify hd]

/-- A VERIFY channel that does not own the bus has nothing to finish (R77). -/
theorem enterStopping_verify {c : Chan} {d : Dest} {s : State} (hw : workOf s = .nothing) (hd : (s.chan c).dir = .verify)
    (hf : s.arb.owner ≠ .dma c) (hm : s.arb.masterChan ≠ some c) :
    enterStopping c d s = s.putChan c { s.chan c with mask := true, state := d.state } := by
  have hent : stopEntered c d s = s.putChan c { s.chan c with mask := true, state := .stopping d } := by
    rw [stopEntered, hd]
    exact ite_self _
  have hchan := stopEntered_chan c d s
  have hstill : stillStopping c (stopEntered c d s) = false := by
    have hto : stagesToMemory ((stopEntered c d s).chan c) = false := by
      rw [hchan, stagesToMemory, hd]
      rfl
    rw [stillStopping, hto, (stopEntered_only c d s).arb]
    simp [hf, hm]
  rw [enterStopping_entered, endStopping_of_nothing (by rw [hchan]) ((stopEntered_only c d s).workOf.trans hw), hstill,
    if_neg Bool.false_ne_true, hchan, hent, putChan_putChan]

theorem kickBus_blockRun {s : State} {c : Chan} (hm : (s.chan c).mode ≠ .block) : ((kickBus s).chan c).blockRun = (s.chan c).blockRun := by
  rcases kickBus_cases s with h | ⟨-, h | h | h | ⟨d, -, h⟩⟩ <;> rw [h]
  · rfl
  · rfl
  · unfold grantHost
    cases hx : s.xfer <;> simp only [State.putSlot_xfer, hx] <;> rfl
  · by_cases hdc : d = c
    · subst hdc
      let v := s.putSlot { s.slot with clock := setClock s.settings }
      have hput (x : Channel) : (v.putChan d x).chan d = x := (State.putChan_chan ..).trans (if_pos rfl)
      unfold grantDma
      split
      · exact (congrArg Channel.blockRun (hput { s.chan d with state := .mastered }) :)
      · have hrun : ((s.chan d).blockRun || decide ((s.chan d).mode = .block)) = (s.chan d).blockRun := by
          rw [decide_eq_false hm, Bool.or_false]
        exact (congrArg Channel.blockRun (hput { s.chan d with
          state := .active, blockRun := (s.chan d).blockRun || decide ((s.chan d).mode = .block) })).trans hrun
    · rw [grantDma_chan_of_ne (Ne.symm hdc)]
      rfl

theorem modeGoesOn_block {c : Chan} {tc : Bool} {s : State} (hm : (s.chan c).mode = .block) (hdr : s.pins.dreq.get c = true)
    (hl : s.slot.line ≠ .asserted) : modeGoesOn c tc s = true := by
  simp [modeGoesOn, hm, hdr, hl]

theorem unitGoesOn_of_mode {c : Chan} {tc : Bool} {s : State} (h : modeGoesOn c tc s = false) : unitGoesOn c tc s = false := by
  simp [unitGoesOn, h]

/-- A channel that asks no more waits when its tenure ends (R71). -/
theorem endDmaTenure_waits {c : Chan} {s : State} (hs : (s.chan c).state = .active) (hdr : s.pins.dreq.get c = false)
    (hsoft : (s.chan c).soft = false) (hrun : (s.chan c).blockRun = false) : ((endDmaTenure c s).chan c).state = .waiting := by
  let u := (boundary c s).putChan c { s.chan c with state := .waiting }
  have hu : u.chan c = { s.chan c with state := .waiting } := (State.putChan_chan ..).trans (if_pos rfl)
  have hidle : requestActive c u = false := by
    have hpins : u.pins = s.pins := (boundary_within c s).pins rfl
    rw [requestActive, hu, hpins]
    simp [hdr, hsoft, hrun]
  rw [endDmaTenure_active hs, placeChan_state (by rw [State.putChan_chan, if_pos rfl]; rfl), placedState]
  exact if_neg (by rw [hidle]; decide)

theorem TerminalUnit.run {s : State} {c : Chan} (h : TerminalUnit s c) (data : BusWord) : ∃ cyc, s.slot.cycle = some cyc ∧
    exec (.unitCycleEnd true data) s = .next (endUnitCycle c cyc (busBytes data) s) ∧ cyc.discard = false ∧ cyc.tc = true ∧
    cyc.ready = false ∧ cyc.check = false := by
  obtain ⟨⟨cyc, hc, hp, hk, ho, hd, hr, hck, htc⟩, -, -⟩ := h
  exact ⟨cyc, hc, exec_unitCycleEnd data hc hp hk ho, hd, htc, hr, hck⟩

end Sys2Proof.Machine
end

section
/-! PROOF. The terminal count by direction and mode (R84 to R86, R91, R108, R115). -/

namespace Sys2Proof.Machine

set_option Elab.async false

/-- The terminal count of a TO MEMORY channel (R91, R108). -/
theorem terminal_toMemory {s : State} {c : Chan} {data : BusWord} {a i h : Nat} (hu : TerminalUnit s c)
    (haddr : (s.slot.cycle.map Cycle.addr) = some a) (hdir : (s.chan c).dir = .toMemory) (hm : (s.chan c).mode ≠ .master)
    (hl : lookupMap s.map a .write = .found i h) :
    ∃ t, exec (.unitCycleEnd true data) s = .next t ∧ (t.stage c).opened = none ∧ (t.chan c).tcFlag = true ∧
      (t.chan c).soft = false ∧ s.order <+: t.order ∧ stagedCount c t = stagedCount c s + c.unit ∧
      ((s.stage c).opened = none → t.order = s.order ++ [.write (.run c) h ((busBytes data).take c.unit)]) ∧
      ((s.chan c).nextBlock ≠ none ∨ (s.chan c).autoReload = true →
        (t.stage c).marks = (s.stage c).marks ++ [stagedCount c s + c.unit] ∧ (t.chan c).mask = (s.chan c).mask) ∧
      ((s.chan c).nextBlock = none → (s.chan c).autoReload = false →
        (t.stage c).marks = (s.stage c).marks ++ [stagedCount c s + c.unit, stagedCount c s + c.unit] ∧
        (t.chan c).mask = true ∧ (t.chan c).state = .stopping .finished) := by
  obtain ⟨cyc, hc, hexec, hd, htc, hr, hck⟩ := hu.run data
  have hca : cyc.addr = a := by
    rw [hc] at haddr
    exact Option.some.inj haddr
  have hmove : (moveUnit c (busBytes data) cyc.addr s).2 = none := by rw [moveUnit_found hdir (by rw [hca]; exact hl)]
  obtain ⟨hopened, hmarks, hcount, hprefix, hrun⟩ := terminalDone_toMemory (data := data) hdir hm hl
  obtain ⟨htcf, hsoft, -, hdirT, hmodeT, -⟩ := Channel.atTerminal_flags (s.chan c).step
  by_cases hgo : (s.chan c).nextBlock ≠ none ∨ (s.chan c).autoReload = true
  · obtain ⟨horder, hstaging, hrec⟩ := endUnitCycle_terminal_goesOn hd htc hr hck hmove hu.2.2 hgo
    rw [hca] at horder hstaging
    have hst := stage_of_staging hstaging c
    refine ⟨_, hexec, by rw [hst]; exact hopened, by rw [hrec]; exact htcf, by rw [hrec]; exact hsoft, by rw [horder]; exact hprefix,
      (stagedCount_congr hst horder).trans hcount, fun ho => horder.trans (hrun ho), fun _ => ⟨by rw [hst]; exact hmarks, ?_⟩, fun hn ha => ?_⟩
    · rw [hrec]
      exact (Channel.atTerminal_goesOn (ch := (s.chan c).step) hgo).1
    · exact absurd hgo (not_or.2 ⟨fun k => k hn, by rw [ha]; decide⟩)
  · obtain ⟨hn, ha⟩ := not_or.1 hgo
    have hn : (s.chan c).nextBlock = none := not_not.1 hn
    have ha : (s.chan c).autoReload = false := by simpa using ha
    obtain ⟨hyc, hyst, hyo, -⟩ := terminalBoundary c a (busBytes data) s
    let y := boundary c (unitCounted a (terminalDone c a (busBytes data) s))
    have hydir : (y.chan c).dir = .toMemory := by rw [hyc]; exact hdirT.trans hdir
    have hymode : (y.chan c).mode ≠ .master := by rw [hyc]; exact fun k => hm (hmodeT.symm.trans k)
    have hycount : stagedCount c y = stagedCount c s + c.unit := (stagedCount_congr hyst hyo).trans hcount
    have hne : stagedCount c y ≠ 0 := by have := unit_ne_zero c; omega
    let z := y.putChan c { y.chan c with mask := true, state := .stopping .finished }
    have hz : enterStopping c .finished y = flushDemand c z := by
      rw [enterStopping_staged hydir hymode hne, stopEntered_toMemory hymode hydir]
    have hzc : (flushDemand c z).chan c = { y.chan c with mask := true, state := .stopping .finished } :=
      (congrArg (fun g => g.chans.get c) ((flushDemand_within c z).dma rfl)).trans ((State.putChan_chan ..).trans (if_pos rfl))
    have hzto : stagesToMemory (z.chan c) = true := by
      rw [show z.chan c = { y.chan c with mask := true, state := .stopping .finished } from (State.putChan_chan ..).trans (if_pos rfl)]
      exact (stagesToMemory_iff _).2 ⟨hydir, hymode⟩
    have hzopened : (z.stage c).opened = none := by
      show (y.stage c).opened = none
      rw [hyst]
      exact hopened
    have hzorder : (flushDemand c z).order = (terminalDone c a (busBytes data) s).order := by
      rw [flushDemand_order, flushedRun, hzopened]
      exact (List.append_nil _).trans hyo
    have hrunT : endUnitCycle c cyc (busBytes data) s = kickBus (flushDemand c z) := by
      rw [endUnitCycle_terminal_stops hd htc hr hck hmove hn ha, hca]
      exact congrArg kickBus hz
    have hkeep : (kickBus (flushDemand c z)).chan c = (flushDemand c z).chan c := kickBus_chan (by rw [hzc]; nofun)
    have horder : (kickBus (flushDemand c z)).order = (terminalDone c a (busBytes data) s).order := ((kickBus_within _).order rfl).trans hzorder
    rw [hexec, hrunT]
    refine ⟨_, rfl, ?_, ?_, ?_, by rw [horder]; exact hprefix, ?_, fun ho => horder.trans (hrun ho), fun h => absurd h hgo, fun _ _ => ⟨?_, ?_, ?_⟩⟩
    · rw [kickBus_stage]
      exact flushDemand_opened_same hzto
    · rw [hkeep, hzc, hyc]
      exact htcf
    · rw [hkeep, hzc, hyc]
      exact hsoft
    · rw [kickBus_stagedCount, flushDemand_stagedCount]
      exact hycount
    · have hymarks : (z.stage c).marks = (s.stage c).marks ++ [stagedCount c s + c.unit] := (congrArg Staging.marks hyst).trans hmarks
      have hzcount : stagedCount c z = stagedCount c s + c.unit := hycount
      rw [kickBus_stage, flushDemand_marks hzto, hzcount, if_neg (by rw [← hycount]; exact hne), hymarks, List.append_assoc]
      rfl
    · rw [hkeep, hzc]
    · rw [hkeep, hzc]

/-- The terminal count of a FROM MEMORY channel (R91, R115). -/
theorem terminal_fromMemory {s : State} {c : Chan} {data : BusWord} {k : Chunk} {ks ks' : List Chunk} {xs : List Host.Cell}
    (hu : TerminalUnit s c) (hdir : (s.chan c).dir = .fromMemory) (hm : (s.chan c).mode ≠ .master) (hch : (s.stage c).chunks = k :: ks)
    (hk : k.data = some xs) (hks : ks' = (if xs.length ≤ c.unit then ks else { k with data := some (xs.drop c.unit) } :: ks)) :
    ∃ t, exec (.unitCycleEnd true data) s = .next t ∧ t.order = s.order ∧ (t.chan c).tcFlag = true ∧
      ((s.chan c).nextBlock = none → (s.chan c).autoReload = false → (t.stage c).chunks = [] ∧
        (workOf s = .nothing → (t.chan c).mask = true)) ∧
      ((s.chan c).nextBlock ≠ none ∨ (s.chan c).autoReload = true →
        ((s.stage c).cursor.passed = .no → t.stage c = { s.stage c with chunks := ks' }) ∧
        ((s.stage c).cursor.passed ≠ .no → t.stage c = { s.stage c with
          chunks := ks'.map (fun k' => { k' with beyond := false })
          cursor := if (s.stage c).cursor.state = .waitingAhead then
              cursorAtTerminal (s.chan c).step.atTerminal { (s.stage c).cursor with passed := .no }
            else { (s.stage c).cursor with passed := .no } })) := by
  obtain ⟨cyc, hc, hexec, hd, htc, hr, hck⟩ := hu.run data
  have hmove : (moveUnit c (busBytes data) cyc.addr s).2 = none := by rw [moveUnit_consumes hdir hch hk]
  obtain ⟨hdorder, hdstay, hdsync⟩ := terminalDone_fromMemory (a := cyc.addr) (bs := busBytes data) hdir hch hk hks
  obtain ⟨htcf, -, -, hdirT, hmodeT, -⟩ := Channel.atTerminal_flags (s.chan c).step
  by_cases hgo : (s.chan c).nextBlock ≠ none ∨ (s.chan c).autoReload = true
  · obtain ⟨horder, hstaging, hrec⟩ := endUnitCycle_terminal_goesOn hd htc hr hck hmove hu.2.2 hgo
    have hst := stage_of_staging hstaging c
    refine ⟨_, hexec, horder.trans hdorder, by rw [hrec]; exact htcf, fun hn ha => ?_, fun _ =>
      ⟨fun hp => hst.trans (hdstay hp), fun hp => hst.trans (hdsync hp)⟩⟩
    exact absurd hgo (not_or.2 ⟨fun k => k hn, by rw [ha]; decide⟩)
  · obtain ⟨hn, ha⟩ := not_or.1 hgo
    have hn : (s.chan c).nextBlock = none := not_not.1 hn
    have ha : (s.chan c).autoReload = false := by simpa using ha
    obtain ⟨hyc, -, hyo, hyq, -⟩ := terminalBoundary c cyc.addr (busBytes data) s
    let y := boundary c (unitCounted cyc.addr (terminalDone c cyc.addr (busBytes data) s))
    obtain ⟨hchunks, hord⟩ := enterStopping_discards (c := c) (d := .finished) (s := y)
      (by rw [hyc]; exact fun k => hm (hmodeT.symm.trans k)) (by rw [hyc]; exact hdirT.trans hdir)
    have hflag : ((enterStopping c .finished y).chan c).tcFlag = true := by
      rw [enterStopping_entered, endStopping_tcFlag, stopEntered_chan, hyc]
      exact htcf
    rw [hexec, endUnitCycle_terminal_stops hd htc hr hck hmove hn ha]
    refine ⟨_, rfl, ((kickBus_within _).order rfl).trans (hord.trans (hyo.trans hdorder)), by rw [kickBus_tcFlag]; exact hflag,
      fun _ _ => ⟨by rw [kickBus_stage]; exact hchunks, fun hnone => ?_⟩, fun h => absurd h hgo⟩
    rw [kickBus_mask]
    exact enterStopping_mask ((workOf_of_queue hyq).trans hnone)

/-- The new pass of a channel that goes on (R91). -/
theorem Channel.atTerminal_pass {ch : Channel} {p : BitVec 8} {a n : BitVec 16}
    (h : (∃ b, ch.nextBlock = some b ∧ p = b.page ∧ a = b.addr ∧ n = b.count) ∨
      (ch.nextBlock = none ∧ ch.autoReload = true ∧ p = ch.page ∧ a = ch.baseAddr ∧ n = ch.baseCount)) :
    ch.step.atTerminal.page = p ∧ ch.step.atTerminal.curAddr = a ∧ ch.step.atTerminal.curCount = n ∧
      ch.step.atTerminal.mask = ch.mask ∧ ch.step.atTerminal.state = ch.state := by
  rcases h with ⟨b, hb, rfl, rfl, rfl⟩ | ⟨hn, ha, rfl, rfl, rfl⟩
  · obtain ⟨hp, -, -, hca, hcc, -, hm, hs, -⟩ := Channel.atTerminal_next (ch := ch.step) hb
    exact ⟨hp, hca, hcc, hm, hs⟩
  · obtain ⟨hp, -, -, hca, hcc, -, hm, hs, -⟩ := Channel.atTerminal_reload (ch := ch.step) hn ha
    exact ⟨hp, hca, hcc, hm, hs⟩

/-- What a channel that goes on has taken up leaves no next block (R91). -/
theorem Channel.atTerminal_taken {ch : Channel} (h : ch.nextBlock ≠ none ∨ ch.autoReload = true) :
    ch.atTerminal.nextBlock = none ∧ ch.atTerminal.autoReload = ch.autoReload ∧ ch.atTerminal.mask = ch.mask := by
  cases hn : ch.nextBlock with
  | some b =>
    obtain ⟨-, -, -, -, -, hnb, hm, -, ha⟩ := Channel.atTerminal_next hn
    exact ⟨hnb, ha, hm⟩
  | none =>
    obtain ⟨-, -, -, -, -, hnb, hm, -, ha⟩ := Channel.atTerminal_reload hn (h.resolve_left fun k => k hn)
    exact ⟨hnb, ha, hm⟩

theorem cursorAtTerminal_over {ch : Channel} {cur : Cursor} (h : ch.nextBlock = none) : cursorAtTerminal ch cur =
    if ch.autoReload then { cur with addr := ch.baseAddr, count := ch.baseCount, state := .reading, passed := .reload }
    else { cur with state := .atEnd } := by
  simp only [cursorAtTerminal, h]

section

variable {s : State} {c : Chan} {cyc : Cycle} {bs : List Byte} (hd : cyc.discard = false) (htc : cyc.tc = true)
  (hr : cyc.ready = false) (hck : cyc.check = false) (hdir : (s.chan c).dir = .verify)

include hd htc hr hck hdir

theorem endUnitCycle_terminal_verify : endUnitCycle c cyc bs s =
    continueDma c true ((unitCounted cyc.addr s).putChan c (s.chan c).step.atTerminal) := by
  rw [endUnitCycle_terminal hd htc hr hck (by rw [moveUnit_verify hdir]), terminalDone_verify hdir]
  rfl

/-- A BLOCK VERIFY channel that goes on while its line asks runs its next unit in the same tenure (R86). -/
theorem endUnitCycle_block_goesOn (hs : (s.chan c).step.atTerminal.state = .active) (hm : (s.chan c).mode = .block)
    (hdr : s.pins.dreq.get c = true) (hl : s.slot.line ≠ .asserted) (href : s.refresh.owed = 0) (hw : s.arb.hostWaiting = false) :
    let v := (unitCounted cyc.addr s).putChan c { (s.chan c).step.atTerminal with blockRun := true }
    endUnitCycle c cyc bs s = beginCycle (unitCycle c v) v ∧ v.chan c = { (s.chan c).step.atTerminal with blockRun := true } := by
  obtain ⟨-, -, -, hdirT, hmodeT, -⟩ := Channel.atTerminal_flags (s.chan c).step
  let w := (unitCounted cyc.addr s).putChan c (s.chan c).step.atTerminal
  have hwc : w.chan c = (s.chan c).step.atTerminal := (State.putChan_chan ..).trans (if_pos rfl)
  have hblock : (s.chan c).step.atTerminal.mode = .block := hmodeT.trans hm
  have hgoes : unitGoesOn c true w = true := unitGoesOn_verify (by rw [hwc]; exact hdirT.trans hdir) (by rw [hwc]; exact hs)
    (modeGoesOn_block (by rw [hwc]; exact hblock) hdr hl) href hw
  have hput : w.putChan c { w.chan c with blockRun := (w.chan c).blockRun || decide ((w.chan c).mode = .block) } =
      (unitCounted cyc.addr s).putChan c { (s.chan c).step.atTerminal with blockRun := true } := by
    rw [hwc, hblock, putChan_putChan, decide_eq_true rfl, Bool.or_true]
  refine ⟨?_, (State.putChan_chan ..).trans (if_pos rfl)⟩
  rw [endUnitCycle_terminal_verify hd htc hr hck hdir, continueDma_goesOn hgoes, hput]

/-- A BLOCK VERIFY channel whose line asks no more gives the bus back at its terminal count, and waits (R86). -/
theorem endUnitCycle_block_waits (hs : (s.chan c).step.atTerminal.state = .active) (hm : (s.chan c).mode = .block)
    (hdr : s.pins.dreq.get c = false) :
    ((endUnitCycle c cyc bs s).chan c).state = .waiting ∧ ((endUnitCycle c cyc bs s).chan c).blockRun = false ∧
    ((endUnitCycle c cyc bs s).chan c).page = (s.chan c).step.atTerminal.page ∧
    ((endUnitCycle c cyc bs s).chan c).curAddr = (s.chan c).step.atTerminal.curAddr ∧
    ((endUnitCycle c cyc bs s).chan c).curCount = (s.chan c).step.atTerminal.curCount := by
  obtain ⟨-, hsoft, hrun, -, hmodeT, -⟩ := Channel.atTerminal_flags (s.chan c).step
  let w := (unitCounted cyc.addr s).putChan c (s.chan c).step.atTerminal
  have hwc : w.chan c = (s.chan c).step.atTerminal := (State.putChan_chan ..).trans (if_pos rfl)
  have hmode : modeGoesOn c true w = false := by
    have hpins : w.pins.dreq.get c = false := hdr
    rw [modeGoesOn, hwc, show (s.chan c).step.atTerminal.mode = .block from hmodeT.trans hm, hpins]
    rfl
  have hact : (w.chan c).state = .active := by rw [hwc]; exact hs
  have hwaits := endDmaTenure_waits hact hdr (by rw [hwc]; exact hsoft) (by rw [hwc]; exact hrun)
  have hrec := endDmaTenure_active_chan hact
  rw [hwc] at hrec
  rw [endUnitCycle_terminal_verify hd htc hr hck hdir, continueDma_ends (unitGoesOn_of_mode hmode),
    kickBus_chan (by rw [hwaits]; nofun)]
  refine ⟨hwaits, ?_, ?_, ?_, ?_⟩ <;> rw [hrec]
  exact hrun

/-- A SINGLE VERIFY channel that goes on: its tenure is over, and nothing of its record moves but its place. -/
theorem endUnitCycle_single_goesOn (hs : (s.chan c).step.atTerminal.state = .active) (hm : (s.chan c).mode = .single) :
    Within { slot := true, arb := true, queue := true, dma := true, master := true } s (endUnitCycle c cyc bs s) ∧
    (endUnitCycle c cyc bs s).chan c = { (s.chan c).step.atTerminal with
      state := ((endUnitCycle c cyc bs s).chan c).state, faults := ((endUnitCycle c cyc bs s).chan c).faults
      firstFault := ((endUnitCycle c cyc bs s).chan c).firstFault, owedFaults := ((endUnitCycle c cyc bs s).chan c).owedFaults
      owedAddr := ((endUnitCycle c cyc bs s).chan c).owedAddr } := by
  obtain ⟨-, -, -, -, hmodeT, -⟩ := Channel.atTerminal_flags (s.chan c).step
  let w := (unitCounted cyc.addr s).putChan c (s.chan c).step.atTerminal
  have hwc : w.chan c = (s.chan c).step.atTerminal := (State.putChan_chan ..).trans (if_pos rfl)
  have hsingle : (s.chan c).step.atTerminal.mode = .single := hmodeT.trans hm
  have hmode : modeGoesOn c true w = false := by rw [modeGoesOn, hwc, hsingle]
  have hact : (w.chan c).state = .active := by rw [hwc]; exact hs
  have hw : Within { slot := true, arb := true, dma := true } s w := by
    constructor <;> intro hk <;> first | rfl | cases hk
  have hall : Within { slot := true, arb := true, queue := true, dma := true, master := true } s (continueDma c true w) :=
    hw.seq (continueDma_active_within hact)
  have hrec := endDmaTenure_active_chan hact
  have hkick := kickBus_chan_eq (endDmaTenure c w) c
  rw [kickBus_blockRun (by rw [hrec, hwc, hsingle]; nofun), hrec, hwc] at hkick
  rw [endUnitCycle_terminal_verify hd htc hr hck hdir]
  refine ⟨hall, ?_⟩
  rw [continueDma_ends (unitGoesOn_of_mode hmode)]
  rw [hkick]

/-- A VERIFY channel that stops at its terminal count is DONE at once (R77, R91). -/
theorem endUnitCycle_verify_stops (hn : (s.chan c).nextBlock = none) (ha : (s.chan c).autoReload = false) (hmas : s.arb.masterChan = none)
    (hnone : workOf s = .nothing) :
    Within { slot := true, arb := true, queue := true, dma := true, master := true } s (endUnitCycle c cyc bs s) ∧
    (endUnitCycle c cyc bs s).chan c = { (s.chan c).step.atTerminal with mask := true, state := .finished } := by
  obtain ⟨-, -, -, hdirT, -⟩ := Channel.atTerminal_flags (s.chan c).step
  obtain ⟨hyc, -, -, hyq, hyf, hym⟩ := terminalBoundary c cyc.addr bs s
  let y := boundary c (unitCounted cyc.addr (terminalDone c cyc.addr bs s))
  have henter : enterStopping c .finished y = y.putChan c { y.chan c with mask := true, state := .finished } :=
    enterStopping_verify ((workOf_of_queue hyq).trans hnone) (by rw [hyc]; exact hdirT.trans hdir) (by rw [hyf]; nofun)
      (by rw [hym, hmas]; nofun)
  have hec : (enterStopping c .finished y).chan c = { (s.chan c).step.atTerminal with mask := true, state := .finished } := by
    rw [henter, State.putChan_chan, if_pos rfl, hyc]
  have hcount : Within { slot := true, arb := true } (terminalDone c cyc.addr bs s) (unitCounted cyc.addr (terminalDone c cyc.addr bs s)) := by
    constructor <;> intro hk <;> first | rfl | cases hk
  have hw : Within { slot := true, arb := true, dma := true } s (enterStopping c .finished y) := by
    rw [henter]
    have hdone : Within { dma := true } s (terminalDone c cyc.addr bs s) := by
      rw [terminalDone_verify hdir]
      exact putChan_within _ _ _
    exact ((hdone.seq hcount (k := { slot := true, arb := true, dma := true })).seq (boundary_within c _)
      (k := { slot := true, arb := true, dma := true })).seq (putChan_within _ _ _)
  rw [endUnitCycle_terminal_stops hd htc hr hck (by rw [moveUnit_verify hdir]) hn ha]
  refine ⟨hw.seq (kickBus_within _), ?_⟩
  have hready : ((enterStopping c .finished y).chan c).state ≠ .ready := by
    rw [hec]
    nofun
  exact (kickBus_chan hready).trans hec

end

/-- Settles O17: the terminal count by direction and mode. -/
theorem terminalCountReloadsOrStops : Obligations.TerminalCountReloadsOrStops := by
  refine ⟨fun s c data a i h hu haddr hdir hm hl => terminal_toMemory hu haddr hdir hm hl,
    fun s c data k ks ks' xs hu hdir hm hch hk hks => ?prefetched, fun s c data p a n hu hdir hm hpass => ?block,
    fun s cyc c data ch hc hp hk ho hd hr hck htc harb hmas hch hs hdir hm htcl hnone => ?single⟩
  case prefetched =>
    obtain ⟨t, hexec, horder, hflag, hstop, hgoes⟩ := terminal_fromMemory (data := data) hu hdir hm hch hk hks
    refine ⟨t, hexec, horder, hflag, hstop, fun hgo => ⟨(hgoes hgo).1, fun hp => ?_⟩⟩
    have hst := (hgoes hgo).2 hp
    have hcur := congrArg Staging.cursor hst
    have hahead (h : (s.stage c).cursor.state = .waitingAhead) : (t.stage c).cursor =
        cursorAtTerminal (s.chan c).step.atTerminal { (s.stage c).cursor with passed := .no } := hcur.trans (if_pos h)
    have hbehind (h : (s.stage c).cursor.state ≠ .waitingAhead) : (t.stage c).cursor = { (s.stage c).cursor with passed := .no } :=
      hcur.trans (if_neg h)
    obtain ⟨hn, ha, -⟩ := Channel.atTerminal_taken (ch := (s.chan c).step) hgo
    refine ⟨(congrArg Staging.chunks hst :), ?_, hbehind, fun h hauto => ?_, fun b h hauto hb => ?_, fun h hauto hnb => ?_⟩
    · by_cases h : (s.stage c).cursor.state = .waitingAhead
      · rw [hahead h, cursorAtTerminal_over hn]
        split <;> rfl
      · rw [hbehind h]
    · rw [hahead h, cursorAtTerminal_over hn, ha, if_neg (by rw [show (s.chan c).step.autoReload = false from hauto]; decide)]
    · obtain ⟨-, hba, hbc, -⟩ := Channel.atTerminal_next (ch := (s.chan c).step) hb
      rw [hahead h, cursorAtTerminal_over hn, ha, if_pos (by exact hauto), hba, hbc]
    · obtain ⟨-, hba, hbc, -⟩ := Channel.atTerminal_reload (ch := (s.chan c).step) hnb hauto
      rw [hahead h, cursorAtTerminal_over hn, ha, if_pos (by exact hauto), hba, hbc]
      rfl
  case block =>
    obtain ⟨cyc, hc, hexec, hd, htc, hr, hck⟩ := hu.run data
    obtain ⟨hpage, hca, hcc, hmask, hstate⟩ := Channel.atTerminal_pass hpass
    obtain ⟨hflag, hsoft, -, hdirT, -⟩ := Channel.atTerminal_flags (s.chan c).step
    refine ⟨fun hdr hl href hw => ?_, fun hdr => ?_⟩
    · obtain ⟨hrun, hv⟩ := endUnitCycle_block_goesOn (bs := busBytes data) hd htc hr hck hdir (hstate.trans hu.2.2) hm hdr hl href hw
      rw [hexec, hrun]
      have hchan (cy : Cycle) (v : State) : (beginCycle cy v).chan c = v.chan c := rfl
      refine ⟨_, _, rfl, rfl, ?_, ?_, ?_, ?_, ?_, ?_, ?_, ?_, rfl, rfl, ?_, ?_⟩
      · rw [hchan, hv]; exact hstate.trans hu.2.2
      · rw [hchan, hv]
      · rw [hchan, hv]; exact hsoft
      · rw [hchan, hv]; exact hflag
      · rw [hchan, hv]; exact hmask
      · rw [hchan, hv]; exact hpage
      · rw [hchan, hv]; exact hca
      · rw [hchan, hv]; exact hcc
      · rw [unitCycle_verify (by rw [hv]; exact hdirT.trans hdir), hv]
        show legacyAddr c _ _ = _
        rw [hpage, hca]
      · rw [unitCycle_verify (by rw [hv]; exact hdirT.trans hdir), hv]
        show decide (_ = 0) = true ↔ _
        rw [decide_eq_true_eq, hcc]
    · obtain ⟨hwait, hrun, hp', ha', hn'⟩ := endUnitCycle_block_waits (bs := busBytes data) hd htc hr hck hdir (hstate.trans hu.2.2) hm hdr
      exact ⟨_, hexec, hwait, hrun, hp'.trans hpage, ha'.trans hca, hn'.trans hcc⟩
  case single =>
    rw [hch] at hs hdir hm
    obtain ⟨hflag, hsoft, hrun, -, -, -, howed, htaken⟩ := Channel.atTerminal_flags (s.chan c).step
    have howed' : (s.chan c).step.atTerminal.tcOwed =
        (if ch.quiet then ch.tcOwed else if ch.tcOwed < 255 then ch.tcOwed + 1 else 255) := by
      rw [howed, hch]
      refine ite_congr rfl (fun _ => rfl) fun _ => ?_
      show min 255 ((s.chan c).tcOwed + 1) = _
      split <;> omega
    have htaken' : (s.chan c).step.atTerminal.nextTaken = (ch.nextTaken || (!ch.quiet && ch.nextBlock.isSome)) := by
      rw [htaken, hch]
      rfl
    have hexec := exec_unitCycleEnd data hc hp hk ho
    by_cases hgo : ch.nextBlock ≠ none ∨ ch.autoReload = true
    · rw [hch] at hgo
      have hact := (Channel.atTerminal_goesOn (ch := (s.chan c).step) hgo).2.trans hs
      obtain ⟨hw, hrec⟩ := endUnitCycle_single_goesOn (bs := busBytes data) hd htc hr hck hdir hact hm
      refine ⟨_, hexec, hw, by rw [hrec]; exact hflag, by rw [hrec]; exact hsoft, by rw [hrec]; exact hrun, by rw [hrec]; exact howed',
        by rw [hrec]; exact htaken', fun b hb => ?_, fun hn ha => ?_, fun hn ha => ?_⟩
      · rw [hch] at hb
        obtain ⟨hpg, hba, hbc, hca, hcc, hnb, hmask, -⟩ := Channel.atTerminal_next (ch := (s.chan c).step) hb
        rw [hrec, hch]
        exact ⟨hnb, hpg, hba, hbc, hca, hcc, hmask⟩
      · rw [hch] at hn ha
        obtain ⟨hpg, -, -, hca, hcc, -, hmask, -⟩ := Channel.atTerminal_reload (ch := (s.chan c).step) hn ha
        rw [hrec, hch]
        exact ⟨hpg, hca, hcc, hmask⟩
      · rw [hch] at hn ha
        exact absurd hgo (not_or.2 ⟨fun k => k hn, by rw [ha]; decide⟩)
    · obtain ⟨hn, ha⟩ := not_or.1 hgo
      have hn : ch.nextBlock = none := not_not.1 hn
      have ha : ch.autoReload = false := by simpa using ha
      obtain ⟨hw, hrec⟩ := endUnitCycle_verify_stops (bs := busBytes data) hd htc hr hck hdir (hch ▸ hn) (hch ▸ ha) hmas hnone
      obtain ⟨-, -, hca, hcc⟩ := Channel.atTerminal_stops (ch := (s.chan c).step) (hch ▸ hn) (hch ▸ ha)
      refine ⟨_, hexec, hw, by rw [hrec]; exact hflag, by rw [hrec]; exact hsoft, by rw [hrec]; exact hrun, by rw [hrec]; exact howed',
        by rw [hrec]; exact htaken', fun b hb => ?_, fun _ h => ?_, fun _ _ => ?_⟩
      · rw [hn] at hb
        cases hb
      · rw [ha] at h
        cases h
      · rw [hrec, hch]
        exact ⟨rfl, rfl, hca, hcc⟩

end Sys2Proof.Machine
end

section
/-! PROOF. Streams (R150 to R154): the checks, the placement cursor, and the reads of a STREAM OUT. -/

namespace Sys2Proof.Machine

set_option Elab.async false

/-! ## What a stream comes to, check by check (R150) -/

theorem streamOperandsGood_iff (r : Record) : streamOperandsGood r = true ↔ streamCheck r := by
  unfold streamOperandsGood streamCheck streamFirst
  simp only [Bool.and_eq_true, Bool.or_eq_true, decide_eq_true_eq, and_assoc]
  rfl

section

variable {isIn : Bool} {r : Record} {s : State} {n : Nat} {w : Entry}

theorem takeStream_badRequest (hc : ¬ streamCheck r) : takeStream isIn r s = answerPlain .badRequest s := by
  have hg := (streamOperandsGood_iff r).not.2 hc
  simp [takeStream, hg]

theorem takeStream_held (hc : streamCheck r) (hh : s.slot.held = true) : takeStream isIn r s = answerPlain .held s := by
  have hg := (streamOperandsGood_iff r).2 hc
  simp [takeStream, hg, hh]

theorem takeStream_noWindow (hc : streamCheck r) (hh : s.slot.held = false)
    (hn : ∀ e, e ∈ s.windows.toList → ¬ windowHolds e .port r.addr.toNat) : takeStream isIn r s = answerPlain .noWindow s := by
  have hg := (streamOperandsGood_iff r).2 hc
  simp [takeStream, hg, hh, decideWindow_none _ hn]

theorem takeStream_span (hc : streamCheck r) (hh : s.slot.held = false) (hd : Decides s n w .port r.addr.toNat)
    (hl : winLimit w < r.addr.toNat + r.sub.toNat) : takeStream isIn r s = answerPlain .span s := by
  have hg := (streamOperandsGood_iff r).2 hc
  have hw : decideWindow s.windows .port r.addr.toNat (streamWidth r) = .error .span := (decideWindow_of_decides _ hd).trans (if_pos hl)
  simp [takeStream, hg, hh, hw]

theorem decideWindow_stream (hd : Decides s n w .port r.addr.toNat) (hl : r.addr.toNat + r.sub.toNat ≤ winLimit w) :
    decideWindow s.windows .port r.addr.toNat (streamWidth r) = .ok w := (decideWindow_of_decides _ hd).trans (if_neg hl.not_gt)

theorem takeStream_refused (hc : streamCheck r) (hh : s.slot.held = false) (hd : Decides s n w .port r.addr.toNat)
    (hl : r.addr.toNat + r.sub.toNat ≤ winLimit w) (ha : winAction w = 1 ∨ winAction w = 2) :
    takeStream isIn r s = answerPlain .refusedByWindow s := by
  have hg := (streamOperandsGood_iff r).2 hc
  rcases ha with ha | ha <;> simp [takeStream, hg, hh, decideWindow_stream hd hl, actionRefuse, actionFill, ha]

theorem takeStream_forward (hc : streamCheck r) (hh : s.slot.held = false) (hd : Decides s n w .port r.addr.toNat)
    (hl : r.addr.toNat + r.sub.toNat ≤ winLimit w) (ha : winAction w = 0) : takeStream isIn r s = checkSegment isIn w r s := by
  have hg := (streamOperandsGood_iff r).2 hc
  simp [takeStream, hg, hh, decideWindow_stream hd hl, actionRefuse, actionFill, ha]

end

theorem exec_streamRow {c : Instr} {k : ReqKind} {isIn : Bool} {s : State} {r : Record} (hrow : (c, k, isIn) ∈ streamRows)
    (ht : takenRecord s = some r) (hk : r.kind = k) : exec c s = .next (takeStream isIn r (setPhase .active s)) := by
  have hw : whenTaken (ofKind k) (takeStream isIn) s = takeStream isIn r (setPhase .active s) := whenTaken_taken _ ht (by simp [ofKind, hk])
  have he : exec c s = .next (whenTaken (ofKind k) (takeStream isIn) s) := by
    simp only [streamRows, List.mem_cons, Prod.mk.injEq, List.not_mem_nil, or_false] at hrow
    obtain ⟨rfl, rfl, rfl⟩ | ⟨rfl, rfl, rfl⟩ := hrow <;> rfl
  rw [he, hw]

/-! ## The placement cursor (R152) -/

/-- What the cursor may move of a stream's record. -/
structure CursorMoved (a b : StreamRec) : Prop where
  programmed : b.isIn = a.isIn ∧ b.port = a.port ∧ b.wordWide = a.wordWide ∧ b.words = a.words ∧ b.waits = a.waits ∧ b.report = a.report ∧
    b.total = a.total
  counted : b.moved = a.moved ∧ b.piece = a.piece ∧ b.firstFault = a.firstFault ∧ b.lastSeg = a.lastSeg ∧ b.used = a.used
  chunks : b.chunks = a.chunks

theorem CursorMoved.refl (a : StreamRec) : CursorMoved a a := ⟨⟨rfl, rfl, rfl, rfl, rfl, rfl, rfl⟩, ⟨rfl, rfl, rfl, rfl, rfl⟩, rfl⟩

theorem CursorMoved.trans {a b d : StreamRec} (h : CursorMoved a b) (k : CursorMoved b d) : CursorMoved a d := by
  obtain ⟨⟨h1, h2, h3, h4, h5, h6, h7⟩, ⟨h8, h9, h10, h11, h12⟩, h13⟩ := h
  obtain ⟨⟨k1, k2, k3, k4, k5, k6, k7⟩, ⟨k8, k9, k10, k11, k12⟩, k13⟩ := k
  exact ⟨⟨k1.trans h1, k2.trans h2, k3.trans h3, k4.trans h4, k5.trans h5, k6.trans h6, k7.trans h7⟩,
    ⟨k8.trans h8, k9.trans h9, k10.trans h10, k11.trans h11, k12.trans h12⟩, k13.trans h13⟩

theorem reachByte_moved (s : State) (r : StreamRec) : CursorMoved r (reachByte s r) ∧ (reachByte s r).step = r.step ∧
    (reachByte s r).placed = r.placed := by
  unfold reachByte followNext
  dsimp only
  split
  · split
    · exact ⟨⟨⟨rfl, rfl, rfl, rfl, rfl, rfl, rfl⟩, ⟨rfl, rfl, rfl, rfl, rfl⟩, rfl⟩, rfl, rfl⟩
    · split <;> exact ⟨⟨⟨rfl, rfl, rfl, rfl, rfl, rfl, rfl⟩, ⟨rfl, rfl, rfl, rfl, rfl⟩, rfl⟩, rfl, rfl⟩
  · exact ⟨.refl r, rfl, rfl⟩

/-- Within its segment the cursor stands where it stood. -/
theorem reachByte_within {s : State} {r : StreamRec} (h : r.off ≠ segLength (s.segment r.seg)) : reachByte s r = r := by
  simp [reachByte, h]

theorem placeByte_moved (s : State) (r : StreamRec) : CursorMoved r (placeByte s r) ∧ r.step <+: (placeByte s r).step := by
  obtain ⟨hm, hst, -⟩ := reachByte_moved s r
  unfold placeByte
  dsimp only
  split
  · refine ⟨hm.trans ⟨⟨rfl, rfl, rfl, rfl, rfl, rfl, rfl⟩, ⟨rfl, rfl, rfl, rfl, rfl⟩, rfl⟩, ?_⟩
    rw [hst]
    exact List.prefix_append ..
  · exact ⟨hm, by rw [hst]⟩

/-- A byte placed within its segment. -/
theorem placeByte_within {s : State} {r : StreamRec} (h : r.off ≠ segLength (s.segment r.seg)) (hw : r.walkEnd = none) :
    placeByte s r = { advancePlaced r 1 with step := r.step ++ [⟨segHost (s.segment r.seg) + r.off, r.seg, r.off,
      decide (r.off + 1 = segLength (s.segment r.seg)), r.use⟩] } := by
  simp only [placeByte, reachByte_within h, hw, if_true]

theorem prepareStep_moved (s : State) (r : StreamRec) : CursorMoved r (prepareStep s r) := by
  unfold prepareStep
  split
  · dsimp only
    split
    · exact (placeByte_moved s r).1.trans (placeByte_moved s _).1
    · exact (placeByte_moved s r).1
  · exact .refl r

theorem prepareStep_out {s : State} {r : StreamRec} (h : r.isIn = false) : prepareStep s r = r := by simp [prepareStep, h]

theorem segLength_pos (e : Entry) : 1 ≤ segLength e := Nat.le_add_left ..

/-- The places of a STREAM IN's first step (R150, R152). -/
theorem prepareStep_first (s : State) (w : Entry) (r : Record) (h : 1 ≤ r.value.toNat) :
    (prepareStep s (newStream true w r)).step.head? = some ⟨segHost (s.segment (streamFirst r)), streamFirst r, 0,
      decide (segLength (s.segment (streamFirst r)) = 1), 0⟩ ∧
    (r.sub = 1 → 2 ≤ r.value.toNat → 2 ≤ segLength (s.segment (streamFirst r)) → (prepareStep s (newStream true w r)).step.length = 2) := by
  have hfirst := placeByte_within (s := s) (r := newStream true w r) (Nat.ne_of_lt (segLength_pos (s.segment (streamFirst r)))) rfl
  have hspot : (placeByte s (newStream true w r)).step = [⟨segHost (s.segment (streamFirst r)), streamFirst r, 0,
      decide (segLength (s.segment (streamFirst r)) = 1), 0⟩] := by
    have hone : decide (0 + 1 = segLength (s.segment (streamFirst r))) = decide (segLength (s.segment (streamFirst r)) = 1) := by
      rw [decide_eq_decide]
      omega
    rw [hfirst, ← hone]
    show [Spot.mk (segHost (s.segment (streamFirst r)) + 0) (streamFirst r) 0
      (decide (0 + 1 = segLength (s.segment (streamFirst r)))) 0] = _
    rw [Nat.add_zero]
  have hprep : prepareStep s (newStream true w r) =
      if r.sub = 1 then placeByte s (placeByte s (newStream true w r)) else placeByte s (newStream true w r) := by
    have hwide : (newStream true w r).wordWide = decide (r.sub = 1) := rfl
    have hstep : ((newStream true w r).isIn && (newStream true w r).step.isEmpty) = true := rfl
    rw [prepareStep, if_pos hstep, hwide]
    dsimp only
    rw [hspot]
    by_cases hsub : r.sub = 1 <;> simp [hsub]
  rw [hprep]
  refine ⟨?_, fun hsub hv hl => ?_⟩
  · split
    · obtain ⟨rest, hrest⟩ := (placeByte_moved s (placeByte s (newStream true w r))).2
      rw [← hrest, hspot]
      rfl
    · rw [hspot]
      rfl
  · rw [if_pos hsub]
    have hwalk : (placeByte s (newStream true w r)).walkEnd = none := by
      rw [hfirst]
      exact if_neg (by show ¬ 0 + 1 = r.value.toNat; omega)
    have hoff : (placeByte s (newStream true w r)).off ≠ segLength (s.segment (placeByte s (newStream true w r)).seg) := by
      rw [hfirst]
      show 0 + 1 ≠ segLength (s.segment (streamFirst r))
      omega
    rw [placeByte_within hoff hwalk, hspot]
    rfl

/-! ## The reads of a STREAM OUT (R154) -/

theorem streamReadLength_eq (s : State) (r : StreamRec) : streamReadLength s r =
    min (min 64 (segLength (s.segment r.seg) - r.off))
      (min (4096 - (segHost (s.segment r.seg) + r.off) % 4096) (r.total - r.placed)) := rfl

/-- A read is formed where the walk goes on and the buffer has the room. -/
theorem formStreamRead_forms {s : State} {r : StreamRec} {n : Nat} (h : s.stream.active = some r) (hin : r.isIn = false)
    (hw : r.walkEnd = none) (hn : n = streamReadLength s r) (h0 : 1 ≤ n) (hroom : heldBytes r + pieceBytes s.order + n ≤ 512) :
    formStreamRead s = { s with
      stream := { active := some (reachByte s (advancePlaced { r with
        chunks := r.chunks ++ [⟨s.stream.readId, r.placed, n, r.seg, r.off, none⟩] } n)), readId := s.stream.readId + 1 }
      order := sendReads (s.order ++ [.read (.stream s.stream.readId)]) } := by
  have hfits : n ≤ streamRoom r s := by
    rw [streamRoom, Config.streamBytes]
    omega
  have hne : n ≠ 0 := by omega
  simp [formStreamRead, h, hin, hw, ← hn, hne, hfits]
  rfl

/-- No read is formed, or the record moves with its cursor and the read. -/
theorem formStreamRead_cases {s : State} {r : StreamRec} (h : s.stream.active = some r) :
    ∃ r', (formStreamRead s).stream.active = some r' ∧ r'.isIn = r.isIn ∧ r'.port = r.port ∧ r'.wordWide = r.wordWide ∧ r'.words = r.words ∧
      r'.waits = r.waits ∧ r'.report = r.report ∧ r'.total = r.total ∧ r'.moved = r.moved ∧ r'.piece = r.piece ∧
      r'.firstFault = r.firstFault := by
  unfold formStreamRead
  rw [h]
  dsimp only
  split
  · obtain ⟨⟨⟨h1, h2, h3, h4, h5, h6, h7⟩, ⟨h8, h9, h10, -⟩, -⟩, -⟩ := reachByte_moved s (advancePlaced { r with
      chunks := r.chunks ++ [⟨s.stream.readId, r.placed, streamReadLength s r, r.seg, r.off, none⟩] } (streamReadLength s r))
    exact ⟨_, rfl, h1, h2, h3, h4, h5, h6, h7, h8, h9, h10⟩
  · exact ⟨r, h, rfl, rfl, rfl, rfl, rfl, rfl, rfl, rfl, rfl, rfl⟩

/-- A read formed moves only the stream's block and the order. -/
theorem formStreamRead_frame (s : State) :
    formStreamRead s = { s with stream := (formStreamRead s).stream, order := (formStreamRead s).order } := by
  unfold formStreamRead
  split
  · dsimp only
    split <;> rfl
  · rfl

/-! ## O43 -/

section

variable {isIn : Bool} {w g : Entry} {r : Record} {s : State} {x : Exec}

theorem checkSegment_end (h : field r.mask 0 8 = 127) :
    checkSegment isIn w r s = endRequest .short 0 [127, 127, 0, 0, 0, 0, 0, 0] s := by
  have h' : streamFirst r = 127 := h
  rw [checkSegment, h']
  rfl

theorem checkSegment_invalid (h : field r.mask 0 8 < 64) (hv : (s.segment (field r.mask 0 8)).valid = false) :
    checkSegment isIn w r s = endRequest .badSegment 0
      [BitVec.ofNat 8 (field r.mask 0 8), BitVec.ofNat 8 (field r.mask 0 8), 0, 0, 0, 0, 0, 0] s := by
  have hne : ¬ streamFirst r = segEnd := Nat.ne_of_lt (Nat.lt_trans h (by decide))
  have hv' : (!(s.segment (streamFirst r)).valid) = true := by
    rw [show (s.segment (streamFirst r)).valid = false from hv]
    rfl
  rw [checkSegment, if_neg hne, if_pos hv']
  rfl

theorem checkSegment_valid (h : field r.mask 0 8 < 64) (hv : (s.segment (field r.mask 0 8)).valid = true) :
    checkSegment isIn w r s = startStream isIn w r s := by
  have hne : ¬ streamFirst r = segEnd := Nat.ne_of_lt (Nat.lt_trans h (by decide))
  have hv' : ¬ (!(s.segment (streamFirst r)).valid) = true := by
    rw [show (s.segment (streamFirst r)).valid = true from hv]
    decide
  rw [checkSegment, if_neg hne, if_neg hv']

/-- The board once a stream has been taken, before a STREAM OUT's first read. -/
def streamTaken (x : Exec) (st : StreamRec) (s : State) : State :=
  { s with queue := { s.queue with exec := some { x with phase := .waiting } }, stream := { s.stream with active := some st } }

theorem setPhase_setPhase (hx : s.queue.exec = some x) : setPhase .waiting (setPhase .active s) =
    { s with queue := { s.queue with exec := some { x with phase := .waiting } } } := by
  rw [setPhase_of hx]
  exact setPhase_of (x := { x with phase := .active }) rfl

theorem startStream_in (hx : s.queue.exec = some x) :
    startStream true w r (setPhase .active s) = streamTaken x (prepareStep s (newStream true w r)) s := by
  show (setPhase .waiting (setPhase .active s)).putActive (some (prepareStep s (newStream true w r))) = _
  rw [setPhase_setPhase hx]
  rfl

theorem startStream_out (hx : s.queue.exec = some x) :
    startStream false w r (setPhase .active s) = formStreamRead (streamTaken x (newStream false w r) s) := by
  show formStreamRead ((setPhase .waiting (setPhase .active s)).putActive (some (prepareStep _ (newStream false w r)))) = _
  rw [setPhase_setPhase hx, prepareStep_out rfl]
  rfl

/-- The first read of a STREAM OUT that finds room and an empty order (R154). -/
theorem streamTaken_read {m : Nat} (hm : m = min (min 64 (segLength (s.segment (field r.mask 0 8))))
      (min (4096 - segHost (s.segment (field r.mask 0 8)) % 4096) r.value.toNat)) (hv : 1 ≤ r.value.toNat)
    (hroom : pieceBytes s.order + m ≤ 512) (ho : s.order = []) :
    ∃ st', formStreamRead (streamTaken x (newStream false w r) s) = { streamTaken x (newStream false w r) s with
        stream := { active := some st', readId := s.stream.readId + 1 }, order := [] } ∧
      st'.chunks = [⟨s.stream.readId, 0, m, field r.mask 0 8, 0, none⟩] := by
  have hlen : m = streamReadLength (streamTaken x (newStream false w r) s) (newStream false w r) := by
    have hsegment : (streamTaken x (newStream false w r) s).segment (newStream false w r).seg = s.segment (field r.mask 0 8) := rfl
    have hoff : (newStream false w r).off = 0 := rfl
    have hplaced : (newStream false w r).placed = 0 := rfl
    have htotal : (newStream false w r).total = r.value.toNat := rfl
    rw [streamReadLength_eq, hsegment, hoff, hplaced, htotal, Nat.sub_zero, Nat.add_zero, Nat.sub_zero, hm]
  have hpos := segLength_pos (s.segment (field r.mask 0 8))
  have hframe : segHost (s.segment (field r.mask 0 8)) % 4096 < 4096 := Nat.mod_lt _ (by decide)
  have hform := formStreamRead_forms (s := streamTaken x (newStream false w r) s) (r := newStream false w r) rfl rfl rfl hlen
    (by omega) (by show 0 + pieceBytes s.order + m ≤ 512; omega)
  rw [show (streamTaken x (newStream false w r) s).order = [] from ho] at hform
  exact ⟨_, hform, (reachByte_moved _ _).1.chunks⟩

/-- The start of a stream that has passed every check. -/
theorem startStream_taken (hc : streamCheck r) (hx : s.queue.exec = some x) :
    ∃ t st, startStream isIn w r (setPhase .active s) = t ∧
      t = { s with
        queue := { s.queue with exec := some { x with phase := .waiting } }, stream := t.stream, order := t.order } ∧
      t.stream.active = some st ∧ st.isIn = isIn ∧ st.port = r.addr.toNat ∧ st.wordWide = decide (r.sub = 1) ∧
      st.words = winWords w ∧ st.waits = winWaits w ∧ st.report = winReport w ∧ st.total = r.value.toNat ∧
      st.moved = 0 ∧ st.piece = none ∧ st.firstFault = none ∧
      (isIn = true → t.order = s.order ∧ st.chunks = [] ∧
        st.step.head? = some ⟨segHost (s.segment (field r.mask 0 8)), field r.mask 0 8, 0,
          decide (segLength (s.segment (field r.mask 0 8)) = 1), 0⟩ ∧
        (r.sub = 1 → 2 ≤ r.value.toNat → 2 ≤ segLength (s.segment (field r.mask 0 8)) → st.step.length = 2)) ∧
      (∀ m, isIn = false → m = min (min 64 (segLength (s.segment (field r.mask 0 8))))
          (min (4096 - segHost (s.segment (field r.mask 0 8)) % 4096) r.value.toNat) →
        pieceBytes s.order + m ≤ 512 → s.order = [] →
        st.chunks = [⟨s.stream.readId, 0, m, field r.mask 0 8, 0, none⟩] ∧ t.order = [] ∧
        t.stream.readId = s.stream.readId + 1) := by
  obtain ⟨-, -, hv, -⟩ := hc
  cases isIn with
  | true =>
    obtain ⟨⟨h1, h2, h3, h4, h5, h6, h7⟩, ⟨h8, h9, h10, -⟩, h11⟩ := prepareStep_moved s (newStream true w r)
    exact ⟨_, _, startStream_in hx, rfl, rfl, h1, h2, h3, h4, h5, h6, h7, h8, h9, h10,
      fun _ => ⟨rfl, h11, prepareStep_first s w r hv⟩, fun _ h => absurd h (by decide)⟩
  | false =>
    obtain ⟨st, hst, h1, h2, h3, h4, h5, h6, h7, h8, h9, h10⟩ :=
      formStreamRead_cases (s := streamTaken x (newStream false w r) s) (r := newStream false w r) rfl
    refine ⟨_, st, startStream_out hx, formStreamRead_frame _, hst, h1, h2, h3, h4, h5, h6, h7, h8, h9, h10,
      fun h => absurd h (by decide), fun m _ hm hroom ho => ?_⟩
    obtain ⟨st', hform, hchunks⟩ := streamTaken_read (x := x) (w := w) hm hv hroom ho
    rw [hform] at hst ⊢
    obtain rfl := Option.some.inj hst
    exact ⟨hchunks, rfl, rfl⟩

end

/-- Settles O43: check by check; one that passes is started by `startStream_taken`. -/
theorem streamsAreCheckedAndTaken : Obligations.StreamsAreCheckedAndTaken := by
  intro c k isIn hrow s r ht hk
  have hexec := exec_streamRow hrow ht hk
  have hends : ∀ {st n d}, takeStream isIn r (setPhase .active s) = endRequest st n d (setPhase .active s) →
      ∃ t, exec c s = .next t ∧ Ends r st n d s t := fun h =>
    ⟨_, hexec.trans (congrArg _ h), endRequest_of_taken _ _ _ ht⟩
  refine ⟨fun hc => hends (takeStream_badRequest hc), fun hc hh => hends (takeStream_held hc hh),
    fun hc hh hn => hends (takeStream_noWindow hc hh hn), fun n w hc hh hd =>
      ⟨fun hl => hends (takeStream_span hc hh hd hl), fun hl ha => hends (takeStream_refused hc hh hd hl ha), fun hl ha => ?_⟩⟩
  have hforward : takeStream isIn r (setPhase .active s) = checkSegment isIn w r (setPhase .active s) :=
    takeStream_forward hc hh hd hl ha
  refine ⟨fun hf => hends (hforward.trans (checkSegment_end hf)),
    fun hf hv => hends (hforward.trans (checkSegment_invalid hf hv)), ?_⟩
  rintro x _ hf rfl hv hx
  obtain ⟨t, st, hstart, hframe, hact, h1, h2, h3, h4, h5, h6, h7, h8, h9, h10, hin, hout⟩ :=
    startStream_taken (isIn := isIn) (w := w) hc hx
  refine ⟨t, st, hexec.trans (congrArg _ ((hforward.trans (checkSegment_valid hf hv)).trans hstart)), hframe, hact, h1, h2, h3, h4, h5, h6,
    h7, h8, h9, h10, fun hi => ?_, hout⟩
  obtain ⟨ho, hk', hhead, htwo⟩ := hin hi
  refine ⟨ho, hk', hhead, ?_⟩
  split
  next h => exact htwo h.1 h.2.1 h.2.2
  next => rfl

end Sys2Proof.Machine
end

section
/-! PROOF. Streams (R154, R156): the walk end that ends a stream, and the reads of a STREAM OUT. -/

namespace Sys2Proof.Machine

set_option Elab.async false

/-! ## A walk end with no byte before it (R156) -/

section

variable {s : State} {st : StreamRec} {x : Exec}

theorem endIfWalked_stays (h : s.stream.active = some st) (hw : ∀ k p, st.walkEnd = some (k, p) → p ≠ st.moved) : endIfWalked s = s := by
  unfold endIfWalked
  rw [h]
  dsimp only
  split
  next k p hk => exact if_neg (by simp [hw k p hk])
  next => rfl

theorem endIfWalked_ends {k : WalkEnd} (h : s.stream.active = some st) (hw : st.walkEnd = some (k, st.moved)) (hr : streamAtRest s = true) :
    endIfWalked s = endStream (walkStatus k st.firstFault) false s := by
  simp [endIfWalked, h, hw, hr]

theorem streamLive_of (hx : s.queue.exec = some x) (hp : x.phase = .waiting ∨ x.phase = .active) : streamLive s = true := by
  simp only [streamLive, hx]
  rcases hp with hp | hp <;> rw [hp] <;> rfl

theorem streamAtRest_of (hx : s.queue.exec = some x) (hp : x.phase = .waiting ∨ x.phase = .active) (ho : s.arb.owner ≠ .hostPath) :
    streamAtRest s = true := by
  simp only [streamAtRest, hx]
  rcases hp with hp | hp <;> rw [hp] <;> simp [ho]

/-! ## Reads formed -/

/-- Where the walk has ended no read is formed. -/
theorem formStreamRead_walked (h : s.stream.active = some st) (hw : st.walkEnd ≠ none) : formStreamRead s = s := by
  unfold formStreamRead
  rw [h]
  exact if_neg (by simp [hw])

theorem reachByte_placed (s : State) (r : StreamRec) : (reachByte s r).placed = r.placed := (reachByte_moved s r).2.2

/-- Reaching a byte leaves a walk end where it stands, and a new one stands behind the bytes placed. -/
theorem reachByte_walkEnd (s : State) (r : StreamRec) : (reachByte s r).walkEnd = r.walkEnd ∨
    r.walkEnd = none ∧ ∃ k, (reachByte s r).walkEnd = some (k, r.placed) := by
  unfold reachByte
  split
  next hc =>
    simp only [Bool.and_eq_true, decide_eq_true_eq] at hc
    unfold followNext
    dsimp only
    split
    · exact .inr ⟨hc.1, _, rfl⟩
    · split
      · exact .inl rfl
      · exact .inr ⟨hc.1, _, rfl⟩
  next => exact .inl rfl

theorem reachByte_walked {r : StreamRec} (h : r.walkEnd ≠ none) : reachByte s r = r := by simp [reachByte, h]

/-- The record once a read of `n` bytes has been formed for it (R154). -/
def readFormed (id n : Nat) (st : StreamRec) : StreamRec :=
  advancePlaced { st with chunks := st.chunks ++ [⟨id, st.placed, n, st.seg, st.off, none⟩] } n

theorem readFormed_total {id n : Nat} (h : st.placed + n = st.total) : (readFormed id n st).walkEnd = some (.total, st.total) := if_pos h

/-- A read formed sets no walk end that a byte is not read before. -/
theorem readFormed_walkEnd {id n : Nat} (hw : st.walkEnd = none) {k : WalkEnd} {p : Nat}
    (h : (reachByte s (readFormed id n st)).walkEnd = some (k, p)) : p = st.placed + n := by
  rcases reachByte_walkEnd s (readFormed id n st) with he | ⟨-, k', he⟩
  · rw [he] at h
    by_cases ht : st.placed + n = st.total
    · rw [readFormed_total ht] at h
      exact (congrArg Prod.snd (Option.some.inj h)).symm.trans ht.symm
    · have hn : (readFormed id n st).walkEnd = none := (if_neg ht).trans hw
      rw [hn] at h
      cases h
  · rw [he] at h
    exact (congrArg Prod.snd (Option.some.inj h)).symm

/-- A read formed with an empty order, before the stream's last byte. -/
theorem streamForm_forms {n : Nat} (h : s.stream.active = some st) (hx : s.queue.exec = some x)
    (hp : x.phase = .waiting ∨ x.phase = .active) (hin : st.isIn = false) (hw : st.walkEnd = none) (ho : s.order = [])
    (hn : n = streamReadLength s st) (h0 : 1 ≤ n) (hroom : heldBytes st + n ≤ 512) (hm : st.moved < st.placed + n) :
    streamForm s = { s with
      stream := { active := some (reachByte s (readFormed s.stream.readId n st)), readId := s.stream.readId + 1 } } := by
  have hform := formStreamRead_forms h hin hw hn h0 (by rw [ho]; exact hroom)
  have horder : sendReads (s.order ++ [.read (.stream s.stream.readId)]) = s.order := by rw [ho]; rfl
  rw [horder] at hform
  have hmoved := (reachByte_moved s (readFormed s.stream.readId n st)).1.counted.1
  have hwalk : ∀ k p, (reachByte s (readFormed s.stream.readId n st)).walkEnd = some (k, p) →
      p ≠ (reachByte s (readFormed s.stream.readId n st)).moved := fun k p hk => by
    rw [readFormed_walkEnd hw hk, hmoved]
    exact (Nat.ne_of_lt hm).symm
  rw [streamForm, if_pos (streamLive_of hx hp), hform]
  exact endIfWalked_stays rfl hwalk

/-! ## Reads completed -/

theorem outstandingStream_none {id : Nat} (h : s.stream.active = some st) (hid : ∀ k, k ∈ st.chunks → k.id ≠ id) :
    outstandingStream id s = none := by
  have hfind : st.chunks.find? (fun k => k.id = id && k.data.isNone) = none :=
    List.find?_eq_none.2 fun k hk => by simp [hid k hk]
  simp only [outstandingStream, h, hfind, ite_self]

theorem streamComplete_none {id : Nat} (r : ReadResult) (h : outstandingStream id s = none) : streamComplete id r s = s := by
  cases r <;> simp only [streamComplete, h]

theorem streamComplete_data {id : Nat} {bs : List Byte} {k : StreamChunk} (h : outstandingStream id s = some k) (hl : bs.length = k.len)
    (hact : s.stream.active = some st) : streamComplete id (.data bs) s = s.putActive (some (streamArrives id bs st)) := by
  simp only [streamComplete, h, hact, if_pos hl, Option.map_some]

theorem streamComplete_error {id : Nat} {k : StreamChunk} (h : outstandingStream id s = some k) (hact : s.stream.active = some st) :
    streamComplete id .error s = endIfWalked (s.putActive (some (failStream k.pos st))) := by
  simp only [streamComplete, h, hact, Option.map_some]

section

variable {pre post : List StreamChunk} {k : StreamChunk}

theorem outstandingStream_some (h : s.stream.active = some st) (hx : s.queue.exec = some x)
    (hp : x.phase = .waiting ∨ x.phase = .active) (hk : st.chunks = pre ++ k :: post) (hd : k.data = none)
    (hid : ∀ k', k' ∈ pre ++ post → k'.id ≠ k.id) (ho : OrderItem.read (.stream k.id) ∉ s.order) :
    outstandingStream k.id s = some k := by
  have hpre : pre.find? (fun k' => k'.id = k.id && k'.data.isNone) = none :=
    List.find?_eq_none.2 fun k' hk' => by simp [hid k' (List.mem_append_left _ hk')]
  simp only [outstandingStream, h, streamLive_of hx hp, readSent_of_not_mem ho, hk, List.find?_append, hpre]
  simp [hd]

/-- The bytes reach the one read of their number that has none. -/
theorem deliverStream_one {bs : List Byte} (hd : k.data = none) (hid : ∀ k', k' ∈ pre ++ post → k'.id ≠ k.id) :
    deliverStream k.id bs (pre ++ k :: post) = pre ++ { k with data := some bs } :: post := by
  have hother : ∀ ks : List StreamChunk, (∀ k', k' ∈ ks → k'.id ≠ k.id) → deliverStream k.id bs ks = ks := fun ks hks =>
    (List.map_congr_left fun k' hk' => by simp [hks k' hk']).trans (List.map_id ks)
  have hpre := hother pre fun k' hk' => hid k' (List.mem_append_left _ hk')
  have hpost := hother post fun k' hk' => hid k' (List.mem_append_right _ hk')
  unfold deliverStream at hpre hpost ⊢
  rw [List.map_append, List.map_cons, hpre, hpost]
  simp [hd]

/-- The record of a stream whose read at `pos` has failed: the walk ends there, and the reads before it stay. -/
def readFailed (pos : Nat) (pre : List StreamChunk) (st : StreamRec) : StreamRec :=
  { st with walkEnd := some (.failed, pos), endingNext := none, chunks := pre }

/-- A failed read that no walk end stands before drops itself and what was read beyond it. -/
theorem failStream_drops (hk : st.chunks = pre ++ k :: post) (hpre : ∀ k', k' ∈ pre → k'.pos < k.pos)
    (hpost : ∀ k', k' ∈ post → k.pos ≤ k'.pos) (hw : ∀ w p, st.walkEnd = some (w, p) → k.pos ≤ p) :
    failStream k.pos st = readFailed k.pos pre st := by
  have hkept : st.chunks.filter (fun k' => k'.pos < k.pos) = pre := by
    have hin : pre.filter (fun k' => decide (k'.pos < k.pos)) = pre :=
      List.filter_eq_self.2 fun k' hk' => decide_eq_true (hpre k' hk')
    have hout : post.filter (fun k' => decide (k'.pos < k.pos)) = [] :=
      List.filter_eq_nil_iff.2 fun k' hk' => by simpa using hpost k' hk'
    simp [hk, hin, hout]
  unfold failStream
  dsimp only
  rw [hkept]
  refine if_neg ?_
  split
  next w p h => simpa using hw w p h
  next => decide

end

end

/-! ## O45 -/

/-- Settles O45: reads formed by `streamForm_forms`; a read completes by its bytes, or by `failStream_drops`. -/
theorem streamReadsFillTheBuffer : Obligations.StreamReadsFillTheBuffer := by
  intro s st x hact hx hp hin
  refine ⟨?walked, ?forms, fun id hid r => congrArg _ (streamComplete_none r (outstandingStream_none hact hid)), ?completes⟩
  case walked =>
    intro hw hne
    refine congrArg Host.Outcome.next ?_
    show streamForm s = s
    rw [streamForm, if_pos (streamLive_of hx hp), formStreamRead_walked hact hw]
    exact endIfWalked_stays hact hne
  case forms =>
    intro n hw ho hn h0 hroom hm
    have hform := streamForm_forms hact hx hp hin hw ho (hn.trans (streamReadLength_eq s st).symm) h0 hroom hm
    obtain ⟨⟨-, hcounted, hchunks⟩, -, hplaced⟩ := reachByte_moved s (readFormed s.stream.readId n st)
    refine ⟨_, _, congrArg Host.Outcome.next hform, ?_, rfl, rfl, hplaced, hcounted.1, hchunks, fun ht => ?_⟩
    · constructor <;> intro h <;> first | rfl | cases h
    · rw [reachByte_walked (by rw [readFormed_total ht]; nofun), readFormed_total ht]
  case completes =>
    intro pre k post hk hd hid hsent
    have hout := outstandingStream_some hact hx hp hk hd hid hsent
    refine ⟨fun bs hlen => ?_, fun hpre hpost hw => ?_⟩
    · refine (congrArg Host.Outcome.next (streamComplete_data hout hlen hact)).trans ?_
      rw [streamArrives, hk, deliverStream_one hd hid]
      rfl
    · have herror : streamComplete k.id .error s = endIfWalked (s.putActive (some (readFailed k.pos pre st))) := by
        rw [streamComplete_error hout hact, failStream_drops hk hpre hpost hw]
      refine ⟨fun hne => ?_, fun hmoved howner hpiece => ?_⟩
      · refine congrArg Host.Outcome.next (herror.trans (endIfWalked_stays rfl fun w p h => ?_))
        obtain ⟨-, rfl⟩ := Prod.mk.inj (Option.some.inj h)
        exact hne
      · rw [hmoved] at herror
        have hrest : streamAtRest (s.putActive (some (readFailed st.moved pre st))) = true := streamAtRest_of (by exact hx) hp howner
        have hended := herror.trans ((endIfWalked_ends rfl (by rfl) hrest).trans (endStream_eq rfl))
        refine ⟨_, _, congrArg Host.Outcome.next hended, ?_, streamClosed_hostWaiting _ _, endWith_ends _ _ _ _ _ x hx⟩
        constructor <;> intro h
        case order =>
          show s.order ++ _ = s.order
          rw [show (readFailed st.moved pre st).piece = none from hpiece]
          exact List.append_nil _
        all_goals first | rfl | cases h

end Sys2Proof.Machine
end

section
/-! PROOF. The port steps of a stream (R153, R155 to R158): what a step's end counts, how the stream then ends or goes on, and how a step
asks for the bus. -/

namespace Sys2Proof.Machine

set_option Elab.async false

/-! ## The bytes of a STREAM IN enter the buffer (R155) -/

/-- The board with the stream record `st` and the order `o`. -/
def withStream (st : StreamRec) (o : List OrderItem) (s : State) : State :=
  { s with stream := { s.stream with active := some st }, order := o }

theorem entersPiece_some (p : Piece) (o : List OrderItem) (sp : Spot) (b : Byte) : entersPiece (some p, o) (sp, b) =
    if sp.host = p.host + p.bytes.length ∧ sp.use = p.use ∧ sp.host / 4096 = p.host / 4096 then
      (if p.bytes.length + 1 = 64 ∨ sp.lastOfSeg = true ∨ (sp.host + 1) % 4096 = 0 then
        (none, o ++ [.write .piece p.host (p.bytes ++ [b])])
      else (some { p with bytes := p.bytes ++ [b] }, o))
    else (some ⟨sp.host, [b], sp.use⟩, o ++ [.write .piece p.host p.bytes]) := rfl

theorem joinsPiece_iff (p : Piece) (sp : Spot) : joinsPiece p sp = true ↔
    sp.host = p.host + p.bytes.length ∧ sp.use = p.use ∧ sp.host / 4096 = p.host / 4096 := by
  simp only [joinsPiece, sameFrame, Bool.and_eq_true, decide_eq_true_eq, and_assoc]
  rfl

/-- The piece that a byte has joined is closed (R155). -/
theorem pieceFull_iff (p : Piece) (sp : Spot) (b : Byte) : ((p.bytes ++ [b]).length = Config.streamPiece || sp.lastOfSeg ||
    (sp.host + 1) % Config.frameBytes = 0) = true ↔ p.bytes.length + 1 = 64 ∨ sp.lastOfSeg = true ∨ (sp.host + 1) % 4096 = 0 := by
  simp only [Bool.or_eq_true, decide_eq_true_eq, or_assoc, List.length_append, List.length_singleton]
  rfl

theorem enterByte_eq {s : State} {st : StreamRec} (sp : Spot) (b : Byte) (h : s.stream.active = some st) :
    enterByte sp b s = withStream { st with piece := (entersPiece (st.piece, s.order) (sp, b)).1 }
      (entersPiece (st.piece, s.order) (sp, b)).2 s := by
  unfold enterByte
  rw [h]
  dsimp only
  cases hp : st.piece with
  | none =>
    dsimp only
    rw [startPiece, h]
    rfl
  | some p =>
    have hclose := closePiece_of_active h
    rw [hp] at hclose
    dsimp only
    by_cases hj : sp.host = p.host + p.bytes.length ∧ sp.use = p.use ∧ sp.host / 4096 = p.host / 4096
    · rw [if_pos ((joinsPiece_iff p sp).2 hj), entersPiece_some, if_pos hj]
      by_cases hfull : p.bytes.length + 1 = 64 ∨ sp.lastOfSeg = true ∨ (sp.host + 1) % 4096 = 0
      · rw [if_pos ((pieceFull_iff p sp b).2 hfull), if_pos hfull, closePiece_of_active rfl]
        rfl
      · rw [if_neg ((pieceFull_iff p sp b).not.2 hfull), if_neg hfull]
        rfl
    · rw [if_neg ((joinsPiece_iff p sp).not.2 hj), entersPiece_some, if_neg hj, hclose]
      rfl

theorem enterBytes_eq (sps : List Spot) : ∀ (bs : List Byte) {s : State} {st : StreamRec}, s.stream.active = some st →
    enterBytes sps bs s = withStream { st with piece := ((sps.zip bs).foldl entersPiece (st.piece, s.order)).1 }
      ((sps.zip bs).foldl entersPiece (st.piece, s.order)).2 s := by
  have hnone {s : State} {st : StreamRec} (h : s.stream.active = some st) : withStream { st with piece := st.piece } s.order s = s := by
    show { s with stream := { s.stream with active := some st } } = s
    rw [← h]
  induction sps with
  | nil => exact fun _ _ _ h => (hnone h).symm
  | cons sp sps ih =>
    intro bs s st h
    cases bs with
    | nil => exact (hnone h).symm
    | cons b bs =>
      show enterBytes sps bs (enterByte sp b s) = _
      rw [enterByte_eq sp b h, ih bs rfl]
      rfl

/-! ## The bytes of a STREAM OUT leave it (R153) -/

/-- All the bytes that leave are of one read. -/
theorem leaveBytes_one {ks : List StreamChunk} : ∀ (m : Nat) {k : StreamChunk} {bs : List Byte} {seg used : Nat}, k.data = some bs →
    m + 1 ≤ bs.length → leaveBytes (m + 1) (k :: ks) seg used =
      (if bs.length = m + 1 then ks
        else { k with data := some (bs.drop (m + 1)), off := k.off + (m + 1), pos := k.pos + (m + 1) } :: ks, k.seg, k.off + (m + 1)) := by
  intro m
  induction m with
  | zero =>
    intro k bs seg used hk hl
    obtain ⟨b, bs, rfl⟩ := List.exists_cons_of_ne_nil (List.ne_nil_of_length_pos hl)
    cases bs <;> simp [leaveBytes, hk]
  | succ m ih =>
    intro k bs seg used hk hl
    obtain ⟨b, bs, rfl⟩ := List.exists_cons_of_ne_nil (List.ne_nil_of_length_pos (Nat.lt_of_lt_of_le (Nat.succ_pos _) hl))
    have hl' : m + 1 ≤ bs.length := Nat.le_of_succ_le_succ hl
    have hne : bs.isEmpty = false := List.isEmpty_eq_false_iff.2 (List.ne_nil_of_length_pos (Nat.lt_of_lt_of_le (Nat.succ_pos _) hl'))
    rw [leaveBytes, hk]
    dsimp only
    rw [hne, if_neg (by decide), ih (k := { k with data := some bs, off := k.off + 1, pos := k.pos + 1 }) rfl hl']
    have hadd (a : Nat) : a + 1 + (m + 1) = a + (m + 1 + 1) := by omega
    simp only [List.length_cons, Nat.add_right_cancel_iff, List.drop_succ_cons, hadd]

/-! ## What a step's end counts -/

theorem faultSoFar_eq (st : StreamRec) (x : Xfer) : (st.firstFault <|> x.firstFault) = faultSoFar st x := by
  unfold faultSoFar
  cases st.firstFault <;> rfl

/-- The record and the order a step's end leaves are those `StepCounted` tells. -/
theorem stepCounted_eq {s : State} {st st1 : StreamRec} {x : Xfer} {o : List OrderItem} (h : StepCounted s st x st1 o) :
    (if st.isIn then enterBytes st.step x.moved (s.putActive (some (countStep st x.moved.length x.firstFault)))
      else s.putActive (some (countStep st x.moved.length x.firstFault))) = withStream st1 o s := by
  have hentered (he : st.isIn = true) (r : StreamRec) :
      (if st.isIn then enterBytes st.step x.moved (s.putActive (some r)) else s.putActive (some r)) = 
        withStream { r with piece := ((st.step.zip x.moved).foldl entersPiece (r.piece, s.order)).1 }
          ((st.step.zip x.moved).foldl entersPiece (r.piece, s.order)).2 s := by
    rw [if_pos he]
    exact enterBytes_eq st.step x.moved rfl
  rcases h with ⟨hm, rfl, rfl⟩ | ⟨sp, hin, hlast, rfl, rfl⟩ | ⟨k, ks, bs, hout, hks, hk, hm, hl, rfl, rfl⟩
  · by_cases hin : st.isIn = true
    · have hcount : countStep st x.moved.length x.firstFault = { st with firstFault := faultSoFar st x, step := [] } := by
        rw [countStep, hin, hm, faultSoFar_eq]
        rfl
      rw [hcount, hentered hin, hm, List.zip_nil_right, if_pos hin]
      rfl
    · have hcount : countStep st x.moved.length x.firstFault = { st with firstFault := faultSoFar st x } := by
        rw [countStep, Bool.eq_false_iff.2 hin, hm, faultSoFar_eq]
        rfl
      rw [hcount, if_neg hin, if_neg hin]
      rfl
  · have hcount : countStep st x.moved.length x.firstFault = { st with
        moved := st.moved + x.moved.length, firstFault := faultSoFar st x, step := [], lastSeg := sp.seg, used := sp.off + 1 } := by
      simp only [countStep, hin, hlast, faultSoFar_eq, if_true]
    rw [hcount, hentered hin]
  · have hcount : countStep st x.moved.length x.firstFault = { st with
        moved := st.moved + x.moved.length, firstFault := faultSoFar st x, lastSeg := k.seg, used := k.off + x.moved.length
        chunks := if bs.length = x.moved.length then ks
          else { k with data := some (bs.drop x.moved.length), off := k.off + x.moved.length, pos := k.pos + x.moved.length } :: ks } := by
      obtain ⟨m, hlen⟩ := Nat.exists_eq_succ_of_ne_zero (fun h => hm (List.eq_nil_of_length_eq_zero h))
      have hleave := leaveBytes_one (ks := ks) m (seg := st.lastSeg) (used := st.used) hk (by omega)
      have hlen' : x.moved.length = m + 1 := hlen
      simp only [countStep, hout, hks, hlen', hleave, faultSoFar_eq, Bool.false_eq_true, if_false]
    rw [hcount, hout]
    rfl

/-! ## The end of a step (R156 to R158) -/

/-- The board once a step's tenure has ended and its bytes count, before the stream ends or goes on. -/
def stepDone (st : StreamRec) (o : List OrderItem) (s : State) : State :=
  { s with
    xfer := none, arb := { s.arb with owner := .free }, order := o
    slot := { s.slot with cycle := none, readyTimer := none, lastAddr := none }
    stream := { s.stream with active := some st } }

/-- The placement cursor looks at the segment table alone. -/
theorem prepareStep_congr {s t : State} (h : t.segments = s.segments) (r : StreamRec) : prepareStep t r = prepareStep s r := by
  have hseg : ∀ n, t.segment n = s.segment n := fun n => by rw [State.segment, State.segment, h]
  have hreach : ∀ r, reachByte t r = reachByte s r := fun r => by simp only [reachByte, followNext, hseg]
  have hplace : ∀ r, placeByte t r = placeByte s r := fun r => by simp only [placeByte, hreach, hseg]
  simp only [prepareStep, hplace]

theorem endStep_eq {s : State} {st st1 : StreamRec} {x : Xfer} {o : List OrderItem} (hact : s.stream.active = some st)
    (hc : StepCounted s st x st1 o) : endStep x s =
      if x.aborted then endStream .aborted false (withStream st1 o s)
      else if x.stopped then endStream ((faultSoFar st x).elim .ok Cause.status) true (withStream st1 o s)
      else endIfWalked (withStream (prepareStep s st1) o s) := by
  unfold endStep
  rw [hact]
  dsimp only
  rw [stepCounted_eq hc, faultSoFar_eq]
  rfl

theorem streamData_eq (st : Status) (r : StreamRec) : streamData r.lastSeg (endingNextOf st r) r.firstFault r.used =
    [BitVec.ofNat 8 r.lastSeg,
      BitVec.ofNat 8 (if st = .short ∨ st = .badSegment then r.endingNext.getD 255 else 255),
      (match r.firstFault with
        | none => 0
        | some .ready => 1
        | some .check => 2), 0] ++ le32 r.used := by
  unfold streamData endingNextOf
  simp only [Bool.or_eq_true, decide_eq_true_eq]
  cases r.firstFault with
  | none => rfl
  | some k => cases k <;> rfl

/-- A stream that a step's end ends, with the grant that follows. -/
theorem streamEnds_of {hf : Bool} {status : Status} {s t : State} {e : Exec} {st : StreamRec} {o : List OrderItem}
    (he : s.queue.exec = some e) (hw : s.arb.hostWaiting = false) (ht : t = kickBus (endStream status hf (stepDone st o s))) :
    StreamEnds hf status s e st o t := by
  have hclosed : streamClosed st (stepDone st o s) = { s with
      xfer := none, arb := { s.arb with owner := .free }
      slot := { s.slot with cycle := none, readyTimer := none, lastAddr := none }
      order := o ++ (match st.piece with
        | some p => [.write .piece p.host p.bytes]
        | none => [])
      stream := { s.stream with active := some { st with piece := none, chunks := [], step := [] } } } := by
    have hw' : (stepDone st o s).arb.hostWaiting = false := hw
    rw [streamClosed, hw']
    rfl
  have hend := (endStream_eq (st := status) (hf := hf) (s := stepDone st o s) rfl).trans
    (by rw [hclosed, streamData_eq])
  rw [hend] at ht
  refine ⟨_, endWith_ends hf status st.moved _ _ e (by exact he), ?_⟩
  rw [ht]
  exact kickBus_within_of_idle ((endWith_within _ _ _ _ _).xfer rfl)

theorem walkStatus_eq (k : WalkEnd) (f : Option Cause) : walkStatus k f = (match k with
    | .total =>
      (match f with
        | none => .ok
        | some .ready => .ready
        | some .check => .check)
    | .atEnd => .short
    | .invalid => .badSegment
    | .failed => .hostError) := by
  cases k
  case total =>
    cases f with
    | none => rfl
    | some c => cases c <;> rfl
  all_goals rfl

theorem StepCounted.firstFault {s : State} {st st1 : StreamRec} {x : Xfer} {o : List OrderItem} (h : StepCounted s st x st1 o) :
    st1.firstFault = faultSoFar st x := by
  rcases h with ⟨-, -, rfl⟩ | ⟨sp, -, -, -, rfl⟩ | ⟨k, ks, bs, -, -, -, -, -, -, rfl⟩ <;> rfl

/-- The host-path tenure of a step is over (R153, R156 to R158). -/
theorem endHostTenure_stepOver {s s' : State} {st st1 : StreamRec} {x : Xfer} {e : Exec} {o : List OrderItem}
    (hs : { freeBus s' with xfer := none } = stepDone st s.order s) (hf : x.forStream = true)
    (hw : s.arb.hostWaiting = false) (he : s.queue.exec = some e) (hp : e.phase = .active) (hc : StepCounted s st x st1 o) :
    StepOver s e x st1 o (endHostTenure x s') := by
  have hdone : ∀ r o', withStream r o' (stepDone st s.order s) = stepDone r o' s := fun _ _ => rfl
  have htenure : endHostTenure x s' = kickBus (endStep x (stepDone st s.order s)) := by
    rw [endHostTenure, hs, hf]
    rfl
  have hstep := endStep_eq (s := stepDone st s.order s) rfl hc
  rw [prepareStep_congr (s := s) (t := stepDone st s.order s) rfl, hdone, hdone] at hstep
  rw [htenure, hstep]
  refine ⟨fun ha => ?aborted, fun k ha hst hk => ?stopped, fun st' ha hst hst' => ⟨fun k hk => ?ends, fun hk => ?goesOn⟩⟩
  case aborted => exact streamEnds_of he hw (by rw [if_pos ha])
  case stopped =>
    refine streamEnds_of he hw ?_
    rw [if_neg (by rw [ha]; decide), if_pos hst, ← hc.firstFault, hk]
    cases k <;> rfl
  case ends =>
    have hrest : streamAtRest (stepDone st' o s) = true := streamAtRest_of he (.inr hp) (by nofun)
    rw [if_neg (by rw [ha]; decide), if_neg (by rw [hst]; decide), ← hst', endIfWalked_ends rfl hk hrest]
    exact (congrArg (StreamEnds false · s e st' o _) (walkStatus_eq k st'.firstFault)).mp (streamEnds_of he hw rfl)
  case goesOn =>
    refine ⟨stepDone st' o s, rfl, ?_⟩
    rw [if_neg (by rw [ha]; decide), if_neg (by rw [hst]; decide), ← hst',
      endIfWalked_stays rfl fun k p hkp hpm => hk k (by rw [hkp, hpm])]
    exact kickBus_within_of_idle rfl

/-! ## The commands that end a cycle -/

theorem Xfer.fault_ready (x : Xfer) : x.fault .ready = { x with
    stopped := x.stopped || !x.report
    firstFault := match x.firstFault with
      | some k => some k
      | none => some .ready } := by
  rw [Xfer.fault]
  cases x.firstFault <;> rfl

/-- The transfer after the end of a cycle of `n` bytes. -/
theorem Xfer.endCycle_eq {x : Xfer} {cyc : Cycle} {bs : List Byte} {n : Nat} {faulted : Bool} (hn : cyc.size = n)
    (hf : (cyc.ready || cyc.check) = faulted) :
    x.endCycle cyc bs = if faulted = true ∧ x.report = false then x else { x with
      addr := x.addr + n, left := x.left - n, out := x.out.drop n, lastLen := n, lastFaulted := faulted
      moved := x.moved ++ (if faulted then List.replicate n 0xFF else bs.take n) } := by
  unfold Xfer.endCycle
  rw [hn, hf]
  by_cases h : faulted = true ∧ x.report = false
  · rw [if_pos h, if_pos (by simp [h.1, h.2])]
  · rw [if_neg h, if_neg (by simpa using h)]
    rfl

/-- Each of the three commands ends the host path's cycle. -/
theorem endsCycle_exec {s : State} {i : Instr} {cyc : Cycle} {x x0 : Xfer} {n : Nat} {faulted : Bool} {bs : List Byte}
    (hc : s.slot.cycle = some cyc) (ho : cyc.owner = .hostPath) (hk : cyc.kind ∈ [.byte, .word]) (hx : s.xfer = some x)
    (h : EndsCycle i cyc x n faulted bs x0) :
    ∃ cyc' y, exec i s = .next (continueHost (x0.endCycle cyc' bs)
        { s with xfer := y, slot := { s.slot with lastAddr := some cyc.addr } }) ∧
      cyc'.size = n ∧ (cyc'.ready || cyc'.check) = faulted := by
  rcases h with ⟨sense, data, rfl, hp, hs, rfl, rfl, rfl, rfl⟩ | ⟨data, rfl, hp, rfl, rfl, rfl, rfl⟩ | ⟨rfl, hp, rfl, rfl, rfl, hx0⟩
  · obtain ⟨hready, hcheck⟩ := Cycle.sensed_faults cyc sense
    refine ⟨cyc.sensed sense, s.xfer, congrArg Host.Outcome.next ((lastClock_ends hc hp (by simp [hostCycle, ho])).trans ?_),
      Cycle.sensed_size hk hs, by rw [hready, hcheck]⟩
    rw [endCycle_host (by rw [Cycle.sensed_owner]; exact ho) hx, Cycle.sensed_addr]
    rfl
  · exact ⟨cyc, s.xfer, congrArg Host.Outcome.next ((releaseReady_extended hc hp).trans (endCycle_host ho hx)), rfl, rfl⟩
  · obtain rfl : x0 = x.fault .ready := hx0.trans x.fault_ready.symm
    refine ⟨{ cyc with ready := true }, some (x.fault .ready), congrArg Host.Outcome.next ((readyExpiry_extended hc hp).trans ?_), rfl, rfl⟩
    have hexpire : expireCycle cyc s = endCycle { cyc with ready := true } 0xFFFF (faultXfer .ready s) := by simp only [expireCycle, ho]
    have hfault : faultXfer .ready s = { s with xfer := some (x.fault .ready) } := by rw [faultXfer, hx]; rfl
    rw [hexpire, hfault, endCycle_host (by exact ho) rfl, busBytes_ones]
    rfl

/-! ## A step asks for the bus (R153) -/

section

variable {s : State} {st : StreamRec} {x : Exec}

theorem streamStep_eq (hact : s.stream.active = some st) (hr : streamAtRest s = true) (hx : s.xfer = none) {n : Nat} {out : List Byte}
    (hs : stepBytes st s = some (n, out)) : streamStep s = askBus (stepXfer st n out) s := by
  simp [streamStep, hact, hr, hx, hs]

theorem streamStep_cannot (hact : s.stream.active = some st) (hs : stepBytes st s = none) : streamStep s = s := by
  simp only [streamStep, hact, hs, ite_self]

theorem streamStep_resting (hr : streamAtRest s = false ∨ s.xfer ≠ none) : streamStep s = s := by
  unfold streamStep
  split
  · rfl
  · refine if_neg ?_
    rw [Bool.and_eq_true, Option.isNone_iff_eq_none]
    exact fun ⟨h1, h2⟩ => hr.elim (fun h => by rw [h] at h1; cases h1) fun h => h h2

theorem streamAtRest_false (hx : s.queue.exec = some x) (h : x.phase = .taken ∨ x.phase = .ended ∨ s.arb.owner = .hostPath) :
    streamAtRest s = false := by
  simp only [streamAtRest, hx]
  rcases h with h | h | h <;> simp [h]

theorem outStep_eq (st : StreamRec) : outStep st =
    if nextOut st ≤ (arrived st.chunks).length then some ((arrived st.chunks).take (nextOut st)) else none := by
  have hsize : (if st.wordWide && !(match st.walkEnd with
      | some (_, pos) => decide (pos = st.moved + 1)
      | none => false) then 2 else 1) = nextOut st := by
    unfold nextOut
    cases st.walkEnd <;> simp
  rw [← hsize]
  rfl

/-- A step that can be made, and its transfer. -/
theorem stepBytes_of_asks {y : Xfer} (h : StepAsks s st y) : ∃ n out, stepBytes st s = some (n, out) ∧ stepXfer st n out = y := by
  rcases h with ⟨hin, hne, hroom, rfl⟩ | ⟨hout, hroom, rfl⟩
  · refine ⟨st.step.length, [], ?_, by rw [stepXfer, hin]⟩
    have hfits : st.step.length ≤ streamRoom st s := by
      rw [streamRoom, Config.streamBytes]
      omega
    simp [stepBytes, hin, hne, hfits]
  · have hlen : ((arrived st.chunks).take (nextOut st)).length = nextOut st := List.length_take_of_le hroom
    refine ⟨nextOut st, _, ?_, by rw [stepXfer, hout]⟩
    rw [stepBytes, hout, outStep_eq, if_pos hroom]
    simp [hlen]

theorem stepBytes_in_full (hin : st.isIn = true) (h : 512 < st.step.length + heldBytes st + pieceBytes s.order) :
    stepBytes st s = none := by
  have hfull : ¬ (!st.step.isEmpty && decide (st.step.length ≤ streamRoom st s)) = true := by
    rw [streamRoom, Config.streamBytes, Bool.and_eq_true, decide_eq_true_eq]
    rintro ⟨hne, hle⟩
    have hpos : 0 < st.step.length := List.length_pos_iff.2 (by simpa using hne)
    omega
  rw [stepBytes, if_pos hin, if_neg hfull]

theorem stepBytes_out_waits (hout : st.isIn = false) (h : (arrived st.chunks).length < nextOut st) : stepBytes st s = none := by
  rw [stepBytes, hout, outStep_eq, if_neg (Nat.not_le.2 h)]
  rfl

end

/-- Settles O44: the end of a step by `endHostTenure_stepOver`; a step that can be made asks for the bus. -/
theorem streamStepAsksForTheBus : Obligations.StreamStepAsksForTheBus := by
  refine ⟨fun s i cyc x x0 x1 n faulted bs st st1 e o hc hco hk _ hw hx hf hact he hp hends hx1 hover hcount => ?_,
    fun s st x hact hx => ⟨fun h => ?rests, fun y hp hxf hasks => ?_, fun hp ho hxf => ⟨fun hin h => ?_, fun hout h => ?_⟩⟩⟩
  · obtain ⟨cyc', y, hexec, hsize, hfaulted⟩ := endsCycle_exec hc hco hk hx hends
    rw [Xfer.endCycle_eq hsize hfaulted, ← hx1] at hexec
    have hisover : x1.over = true := by simpa [Xfer.over, or_assoc] using hover
    have hf1 : x1.forStream = true := by
      have hf0 : x0.forStream = true := by
        rcases hends with ⟨_, _, -, -, -, -, -, -, rfl⟩ | ⟨_, -, -, -, -, -, rfl⟩ | ⟨-, -, -, -, -, rfl⟩ <;> exact hf
      rw [hx1]
      split <;> exact hf0
    rw [continueHost, if_pos hisover] at hexec
    refine ⟨_, hexec, endHostTenure_stepOver ?_ hf1 hw he hp hcount⟩
    rw [stepDone, ← hact]
    rfl
  case rests =>
    refine congrArg Host.Outcome.next (streamStep_resting ?_)
    rcases h with h | h | h | h
    · exact .inl (streamAtRest_false hx (.inl h))
    · exact .inl (streamAtRest_false hx (.inr (.inl h)))
    · exact .inl (streamAtRest_false hx (.inr (.inr h)))
    · exact .inr h
  · obtain ⟨n, out, hs, rfl⟩ := stepBytes_of_asks hasks
    refine ⟨fun ho hfree => congrArg Host.Outcome.next ?_, fun ho hl hr hn => congrArg Host.Outcome.next ?_⟩
    · rw [streamStep_eq hact (streamAtRest_of hx hp ho) hxf hs, askBus_owned hfree]
      simp only [limitReached, Bool.and_assoc]
    · rw [streamStep_eq hact (streamAtRest_of hx hp (by rw [ho]; decide)) hxf hs, askBus_granted ho hl hr hn, setPhase_of hx]
  · exact congrArg Host.Outcome.next (streamStep_cannot hact (stepBytes_in_full hin h))
  · exact congrArg Host.Outcome.next (streamStep_cannot hact (stepBytes_out_waits hout h))

end Sys2Proof.Machine
end

section
/-! PROOF. The ready timer of a cycle (R11): its expiry does not look at the count of the refresh timer. -/

namespace Sys2Proof.Machine

set_option Elab.async false

/-- The state with another count of the refresh timer. -/
def retimed (tf : Nat → Nat) (s : State) : State := aside id tf s

section

variable (tf : Nat → Nat) (s : State)

/-! ## Grants and tenures -/

theorem grantHost_retimed : grantHost (retimed tf s) = retimed tf (grantHost s) := by
  have hx : (retimed tf s).xfer = s.xfer := rfl
  unfold grantHost
  rw [hx]
  cases s.xfer <;> rfl

theorem grantDma_retimed (c : Chan) : grantDma c (retimed tf s) = retimed tf (grantDma c s) := by
  unfold grantDma
  rw [apply_ite (retimed tf)]
  rfl

theorem grant_retimed : grant (retimed tf s) = retimed tf (grant s) := by
  have hr : readyChan (retimed tf s) = readyChan s := rfl
  unfold grant
  rw [hr]
  cases readyChan s with
  | none =>
    dsimp only
    simp only [grantHost_retimed, apply_ite (retimed tf)]
    rfl
  | some c =>
    dsimp only
    simp only [grantHost_retimed, grantDma_retimed, apply_ite (retimed tf)]
    rfl

theorem kickBus_retimed : kickBus (retimed tf s) = retimed tf (kickBus s) := by
  have hclock : applyClock (retimed tf s) = retimed tf (applyClock s) := by
    unfold applyClock
    rw [apply_ite (retimed tf)]
    rfl
  unfold kickBus
  dsimp only
  rw [hclock, grant_retimed]
  simp only [apply_ite (retimed tf)]
  rfl

theorem endDmaTenure_retimed (c : Chan) : endDmaTenure c (retimed tf s) = retimed tf (endDmaTenure c s) := by
  have hfreed : rotateOrder c (freeBus (turnAtBoundary (retimed tf s))) = retimed tf (rotateOrder c (freeBus (turnAtBoundary s))) := by
    unfold rotateOrder
    rw [apply_ite (retimed tf)]
    rfl
  unfold endDmaTenure
  dsimp only
  rw [hfreed]
  generalize rotateOrder c (freeBus (turnAtBoundary s)) = v
  have hc : (retimed tf v).chan c = v.chan c := rfl
  rw [hc]
  cases (v.chan c).state with
  | stopping d => exact enterStopping_aside id tf c v d
  | active => exact placeChan_aside id tf c (v.putChan c { v.chan c with state := .waiting }) true
  | _ => rfl

theorem continueDma_retimed (c : Chan) (tc : Bool) : continueDma c tc (retimed tf s) = retimed tf (continueDma c tc s) := by
  unfold continueDma
  rw [endDmaTenure_retimed, kickBus_retimed, apply_ite (retimed tf)]
  rfl

theorem endUnitCycle_retimed (c : Chan) (cyc : Cycle) (bs : List Byte) :
    endUnitCycle c cyc bs (retimed tf s) = retimed tf (endUnitCycle c cyc bs s) := by
  have hcount (u : State) : countUnit (retimed tf u) = retimed tf (countUnit u) := rfl
  have hperform : performUnit c cyc bs (retimed tf s) = retimed tf (performUnit c cyc bs s) :=
    performUnit_aside id tf c s cyc cyc.phase bs
  have hlast (u : State) : continueDma c cyc.tc ((retimed tf u).putSlot { (retimed tf u).slot with lastAddr := some cyc.addr }) =
      retimed tf (continueDma c cyc.tc (u.putSlot { u.slot with lastAddr := some cyc.addr })) :=
    continueDma_retimed tf (u.putSlot { u.slot with lastAddr := some cyc.addr }) c cyc.tc
  unfold endUnitCycle
  dsimp only
  rw [hperform, hcount, hcount, endDmaTenure_retimed, kickBus_retimed, hlast, apply_ite (retimed tf)]

theorem endRefreshCycle_retimed (cyc : Cycle) : endRefreshCycle cyc (retimed tf s) = retimed tf (endRefreshCycle cyc s) := by
  unfold endRefreshCycle
  dsimp only
  rw [apply_ite (retimed tf), ← kickBus_retimed]
  rfl

/-! ## The stream engine and the host path -/

theorem closePiece_retimed : closePiece (retimed tf s) = retimed tf (closePiece s) := by
  have hs : (retimed tf s).stream.active = s.stream.active := rfl
  unfold closePiece
  rw [hs]
  cases s.stream.active with
  | none => rfl
  | some r => dsimp only; cases r.piece <;> rfl

theorem startPiece_retimed (sp : Spot) (b : Byte) : startPiece sp b (retimed tf s) = retimed tf (startPiece sp b s) := by
  have hs : (retimed tf s).stream.active = s.stream.active := rfl
  unfold startPiece
  rw [hs]
  cases s.stream.active <;> rfl

theorem enterByte_retimed (sp : Spot) (b : Byte) : enterByte sp b (retimed tf s) = retimed tf (enterByte sp b s) := by
  have hs : (retimed tf s).stream.active = s.stream.active := rfl
  have hput (v : Option StreamRec) : closePiece ((retimed tf s).putActive v) = retimed tf (closePiece (s.putActive v)) :=
    closePiece_retimed tf (s.putActive v)
  unfold enterByte
  rw [hs]
  cases s.stream.active with
  | none => rfl
  | some r =>
    dsimp only
    cases r.piece with
    | none => exact startPiece_retimed tf s sp b
    | some p =>
      dsimp only
      rw [hput, closePiece_retimed, startPiece_retimed]
      simp only [apply_ite (retimed tf)]
      rfl

theorem enterBytes_retimed (sps : List Spot) : ∀ (bs : List Byte) (s : State),
    enterBytes sps bs (retimed tf s) = retimed tf (enterBytes sps bs s) := by
  induction sps with
  | nil => exact fun _ _ => rfl
  | cons sp sps ih =>
    intro bs s
    cases bs with
    | nil => rfl
    | cons b bs => rw [enterBytes, enterByte_retimed, ih, enterBytes]

theorem endStream_retimed (st : Status) (hf : Bool) : endStream st hf (retimed tf s) = retimed tf (endStream st hf s) := by
  cases hs : s.stream.active with
  | none => simp only [endStream, hs, show (retimed tf s).stream.active = s.stream.active from rfl]
  | some r =>
    rw [endStream_eq hs, endStream_eq (show (retimed tf s).stream.active = some r from hs)]
    exact endWith_aside id tf (streamClosed r s) hf st r.moved _

theorem endIfWalked_retimed : endIfWalked (retimed tf s) = retimed tf (endIfWalked s) := by
  have hs : (retimed tf s).stream.active = s.stream.active := rfl
  have hrest : streamAtRest (retimed tf s) = streamAtRest s := rfl
  unfold endIfWalked
  rw [hs, hrest]
  cases s.stream.active with
  | none => rfl
  | some r =>
    dsimp only
    cases r.walkEnd with
    | none => rfl
    | some k => dsimp only; rw [endStream_retimed, apply_ite (retimed tf)]

theorem endStep_retimed (x : Xfer) : endStep x (retimed tf s) = retimed tf (endStep x s) := by
  have hs : (retimed tf s).stream.active = s.stream.active := rfl
  have hput (u : State) (v : Option StreamRec) : (retimed tf u).putActive v = retimed tf (u.putActive v) := rfl
  have hprepare (u : State) : prepareStep (retimed tf u) = prepareStep u := funext fun r => prepareStep_congr rfl r
  unfold endStep
  rw [hs]
  cases s.stream.active with
  | none => rfl
  | some r =>
    dsimp only
    rw [hput, enterBytes_retimed, ← apply_ite (retimed tf)]
    generalize (if r.isIn = true then _ else _) = u
    rw [hprepare, show (retimed tf u).stream.active = u.stream.active from rfl, hput, endIfWalked_retimed, endStream_retimed,
      endStream_retimed, apply_ite (retimed tf), apply_ite (retimed tf)]

theorem endHostTenure_retimed (x : Xfer) : endHostTenure x (retimed tf s) = retimed tf (endHostTenure x s) := by
  have hfree : { freeBus (retimed tf s) with xfer := none } = retimed tf { freeBus s with xfer := none } := rfl
  have hfinish (u : State) : finishSlotRequest x (retimed tf u) = retimed tf (finishSlotRequest x u) := by
    rw [finishSlotRequest_eq, finishSlotRequest_eq]
    exact endWith_aside ..
  unfold endHostTenure
  dsimp only
  rw [hfree, hfinish, endStep_retimed, ← apply_ite (retimed tf), kickBus_retimed]

theorem endHostCycle_retimed (cyc : Cycle) (bs : List Byte) : endHostCycle cyc bs (retimed tf s) = retimed tf (endHostCycle cyc bs s) := by
  have hx : (retimed tf s).xfer = s.xfer := rfl
  have hlast (x : Xfer) : endHostTenure x ((retimed tf s).putSlot { (retimed tf s).slot with lastAddr := some cyc.addr }) =
      retimed tf (endHostTenure x (s.putSlot { s.slot with lastAddr := some cyc.addr })) :=
    endHostTenure_retimed tf (s.putSlot { s.slot with lastAddr := some cyc.addr }) x
  unfold endHostCycle
  rw [hx]
  cases s.xfer with
  | none => rfl
  | some x =>
    dsimp only
    unfold continueHost
    rw [hlast, apply_ite (retimed tf)]
    rfl

/-! ## The ready limit -/

theorem endCycle_retimed (cyc : Cycle) (data : BusWord) : endCycle cyc data (retimed tf s) = retimed tf (endCycle cyc data s) := by
  unfold endCycle
  cases cyc.owner with
  | hostPath => exact endHostCycle_retimed ..
  | dma c => exact endUnitCycle_retimed ..
  | refresh => exact endRefreshCycle_retimed ..
  | _ => rfl

theorem expireCycle_retimed (cyc : Cycle) : expireCycle cyc (retimed tf s) = retimed tf (expireCycle cyc s) := by
  have howe : oweSlotFault .ready true (some cyc.addr) (retimed tf s) = retimed tf (oweSlotFault .ready true (some cyc.addr) s) := by
    have hf : (retimed tf s).slot.slotFault = s.slot.slotFault := rfl
    unfold oweSlotFault
    rw [hf]
    cases s.slot.slotFault <;> rfl
  unfold expireCycle
  dsimp only
  cases cyc.owner with
  | hostPath => exact endCycle_retimed tf (faultXfer .ready s) _ _
  | dma c => exact endCycle_retimed ..
  | refresh => dsimp only; rw [howe, endCycle_retimed]
  | _ => rfl

end

/-- With a cycle in the engine the expiry of its ready timer goes by the board alone. -/
theorem readyExpiry_retimed (tf : Nat → Nat) {s : State} (h : s.slot.cycle ≠ none) :
    readyExpiry (retimed tf s) = retimed tf (readyExpiry s) := by
  obtain ⟨cyc, hc⟩ := Option.ne_none_iff_exists'.1 h
  have hc' : (retimed tf s).slot.cycle = some cyc := hc
  simp only [readyExpiry, hc, hc', expireCycle_retimed, apply_ite (retimed tf)]

end Sys2Proof.Machine
end

section
/-! PROOF. What the expiry of a cycle's ready timer leaves to the other timers: the pulse, the refresh timer and a held cycle as they were, and
a run or a master tenure that begins with nothing counted. -/

namespace Sys2Proof.Machine

set_option Elab.async false

/-! ## Open runs that have counted nothing -/

/-- The open run, if there is one, has counted nothing. -/
def Staging.Young (st : Staging) : Prop := ∀ r, st.opened = some r → r.age = 0

/-- No open run has counted anything. -/
def Young (s : State) : Prop := ∀ c, (s.stage c).Young

theorem Young.of_within {m : Touch} {s t : State} (hy : Young s) (h : Within m s t) (hm : m.staging = false := by rfl) : Young t :=
  fun c => by
    rw [stage_of_staging (h.staging hm)]
    exact hy c

theorem Young.putStage {s : State} (hy : Young s) (c : Chan) {v : Staging} (hv : v.Young) : Young (s.putStage c v) := fun d => by
  rw [State.putStage_stage]
  split
  · exact hv
  · exact hy d

theorem joinRun_age (dec : Bool) (r : Run) (bs : List Byte) (l h : Nat) : (joinRun dec r bs l h).age = r.age := by
  cases dec <;> rfl

section

variable {s : State} (hy : Young s) (c : Chan)

include hy

theorem Young.closeRun : Young (closeRun c s) := by
  cases h : (s.stage c).opened with
  | none => rwa [closeRun_none h]
  | some r =>
    rw [closeRun_of_opened h]
    exact Young.putStage hy c (v := { s.stage c with opened := none }) nofun

theorem Young.flushDemand : Young (flushDemand c s) := by
  have hclosed := hy.closeRun c
  unfold Machine.flushDemand
  dsimp only
  split
  · split
    · exact hclosed
    · exact hclosed.putStage c (hclosed c)
  · exact hy

theorem Young.cursorSync : Young (cursorSync c s) := by
  unfold Machine.cursorSync
  dsimp only
  split
  · exact hy
  · exact hy.putStage c (hy c)

theorem Young.consumeUnit : Young (consumeUnit c s) := by
  unfold Machine.consumeUnit
  dsimp only
  split
  · split
    · exact hy.putStage c (hy c)
    · exact hy
  · exact hy

/-- A run that a unit begins has counted nothing, and one that it joins no more than before. -/
theorem Young.placeFound (bs : List Byte) (l e h : Nat) : Young (placeFound c bs l e h s) := by
  have hfresh {u : State} (hu : Young u) : Young (u.putStage c { u.stage c with opened := some (startRun bs l e h) }) :=
    hu.putStage c fun r hr => by
      cases hr
      rfl
  unfold Machine.placeFound
  dsimp only
  split
  · exact hfresh hy
  next r hr =>
    have hjoined : Young (s.putStage c { s.stage c with opened := some (joinRun (s.chan c).decrement r bs l h) }) :=
      hy.putStage c fun r' hr' => by
        cases hr'
        rw [joinRun_age]
        exact hy c r hr
    split
    · split
      · exact hjoined.closeRun c
      · exact hjoined
    · exact hfresh (hy.closeRun c)

/-! ## Stopping, terminal count, a unit -/

theorem Young.clearMask : Young (clearMask c s) := by
  have hunmask (ch : Channel) : Young (unmask c ch s) := by
    unfold unmask
    dsimp only
    refine Young.of_within ?_ (placeChan_within true c _)
    split
    · exact Young.putStage (s := s.putChan c _) hy c (hy c)
    · exact hy
  unfold Machine.clearMask
  dsimp only
  split
  · exact hunmask _
  · exact hunmask _
  all_goals exact hy

theorem Young.endStopping : Young (endStopping c s) := by
  rcases endStopping_cases c s with h | ⟨d, h⟩ <;> rw [h]
  · exact hy
  · refine Young.of_within ?_ (maskCheck_within _)
    rcases waitingClear_cases c (s.putChan c { s.chan c with state := d.state }) with h | ⟨w, h⟩ <;> rw [h]
    · exact hy
    · exact Young.clearMask (s := setWork w (s.putChan c _)) hy c

theorem Young.enterStopping (d : Dest) : Young (enterStopping c d s) := by
  rw [enterStopping_entered]
  refine Young.endStopping ?_ c
  unfold stopEntered
  split
  · exact hy
  · split
    · exact Young.flushDemand (s := s.putChan c _) hy c
    · exact Young.putStage (s := s.putChan c _) hy c (hy c)
    · exact hy

theorem Young.stopOnFault : Young (stopOnFault c s) := by
  unfold Machine.stopOnFault maskChan
  dsimp only
  split
  · split
    case h_1 | h_2 | h_3 => exact hy
    case h_4 | h_5 | h_6 => exact Young.enterStopping (s := s.putChan c _) hy c _
    case h_7 | h_8 => exact hy
  · exact hy

theorem Young.terminalCount : Young (terminalCount c s) := by
  unfold Machine.terminalCount
  dsimp only
  split
  · exact Young.flushDemand (s := s.putChan c _) hy c
  · exact Young.cursorSync (s := s.putChan c _) hy c
  · exact hy

theorem Young.moveUnit (bs : List Byte) (l : Nat) : Young (moveUnit c bs l s).1 := by
  unfold Machine.moveUnit placeUnit
  split
  · split
    · exact hy
    · exact hy
    · exact hy.placeFound c _ _ _ _
  · exact hy.consumeUnit c
  · exact hy

theorem Young.performUnit (cyc : Cycle) (bs : List Byte) : Young (performUnit c cyc bs s) := by
  have hmoved := hy.moveUnit c bs cyc.addr
  unfold Machine.performUnit
  generalize Machine.moveUnit c bs cyc.addr s = p at hmoved ⊢
  dsimp only
  have hstep : Young ((recordIf p.2 cyc.addr c p.1).putChan c ((recordIf p.2 cyc.addr c p.1).chan c).step) :=
    Young.of_within (s := recordIf p.2 cyc.addr c p.1) (hmoved.of_within (recordIf_within p.2 cyc.addr c p.1)) (putChan_within c _ _)
  generalize (recordIf p.2 cyc.addr c p.1).putChan c _ = s3 at hstep ⊢
  have hcounted : Young (if cyc.tc = true then Machine.terminalCount c s3 else s3) := by
    split
    · exact hstep.terminalCount c
    · exact hstep
  generalize (if cyc.tc = true then Machine.terminalCount c s3 else s3) = s4 at hcounted ⊢
  have hready : Young (if cyc.ready = true then recordFault .ready cyc.addr c s4 else s4) := by
    split <;> exact hcounted
  generalize (if cyc.ready = true then recordFault .ready cyc.addr c s4 else s4) = s5 at hready ⊢
  have hcheck : Young (if cyc.check = true then recordFault .check cyc.addr c s5 else s5) := by
    split <;> exact hready
  split
  · exact hcheck.stopOnFault c
  · exact hcheck

end

/-! ## What the other timers find -/

/-- What an event leaves to the timers: a held cycle, the pulse, the line and the refresh timer as they were; a master tenure or a run that it
begins has counted nothing. -/
structure Unhurried (s t : State) : Prop where
  stretched : t.master.stretched = s.master.stretched
  pulse : t.slot.pulse = s.slot.pulse
  line : t.slot.line = s.slot.line
  timer : t.refresh.timer = s.refresh.timer
  meter : (s.arb.owner = .master → s.arb.meter = 0) → t.arb.owner = .master → t.arb.meter = 0
  young : Young s → Young t

theorem Unhurried.refl (s : State) : Unhurried s s := ⟨rfl, rfl, rfl, rfl, id, id⟩

/-- The last event first. -/
theorem Unhurried.after {s t u : State} (k : Unhurried t u) (h : Unhurried s t) : Unhurried s u :=
  ⟨k.stretched.trans h.stretched, k.pulse.trans h.pulse, k.line.trans h.line, k.timer.trans h.timer, k.meter ∘ h.meter, k.young ∘ h.young⟩

theorem Unhurried.ite {s t u : State} {p : Prop} [Decidable p] (h : p → Unhurried s t) (k : ¬ p → Unhurried s u) :
    Unhurried s (if p then t else u) := by
  split
  · exact h ‹_›
  · exact k ‹_›

/-- The blocks that hold no timer but the ages of the open runs. -/
abbrev Touch.untimed : Touch :=
  { pending := true, xfer := true, windows := true, queue := true, dma := true, map := true, staging := true, order := true, irq := true,
    segments := true, stream := true, ret := true, intake := true, settings := true, pins := true, host := true }

theorem Unhurried.of_young {m : Touch} {s t : State} (h : Within m s t) (hy : Young s → Young t)
    (l : m.le Touch.untimed = true := by decide) : Unhurried s t := by
  have hw := h.mono l
  refine ⟨by rw [hw.master rfl], by rw [hw.slot rfl], by rw [hw.slot rfl], by rw [hw.refresh rfl], fun hm ho => ?_, hy⟩
  rw [hw.arb rfl] at ho ⊢
  exact hm ho

theorem Unhurried.of_within {m : Touch} {s t : State} (h : Within m s t) (hm : m.staging = false := by rfl)
    (l : m.le Touch.untimed = true := by decide) : Unhurried s t := .of_young h (fun hy => hy.of_within h hm) l

section

variable (s : State)

/-! ## Grants and tenures -/

theorem beginCycle_unhurried (cyc : Cycle) : Unhurried s (beginCycle cyc s) := ⟨rfl, rfl, rfl, rfl, id, id⟩

theorem grantHost_unhurried : Unhurried s (grantHost s) := by
  unfold grantHost
  split
  · exact .refl s
  · exact ⟨rfl, rfl, rfl, rfl, fun _ => nofun, id⟩

theorem grantDma_unhurried (c : Chan) : Unhurried s (grantDma c s) :=
  .ite (fun _ => ⟨rfl, rfl, rfl, rfl, fun _ _ => rfl, id⟩) fun _ => ⟨rfl, rfl, rfl, rfl, fun _ => nofun, id⟩

/-- A grant hands the bus on with its meter from zero. -/
theorem kickBus_unhurried : Unhurried s (kickBus s) := by
  have hclock : Unhurried s (s.putSlot { s.slot with clock := setClock s.settings }) := ⟨rfl, rfl, rfl, rfl, id, id⟩
  rcases kickBus_cases s with h | ⟨-, h | h | h | ⟨c, -, h⟩⟩ <;> rw [h]
  · exact .refl s
  · exact hclock
  · exact ⟨rfl, rfl, rfl, rfl, fun _ => nofun, id⟩
  · exact (grantHost_unhurried _).after hclock
  · exact (grantDma_unhurried _ c).after hclock

theorem endDmaTenure_unhurried (c : Chan) : Unhurried s (endDmaTenure c s) := by
  have hfreed : Unhurried s (freeBus (turnAtBoundary s)) := ⟨rfl, rfl, rfl, rfl, fun _ => nofun, id⟩
  have hrotated := (Unhurried.of_within (rotateOrder_within c (freeBus (turnAtBoundary s)))).after hfreed
  unfold endDmaTenure
  dsimp only
  generalize rotateOrder c (freeBus (turnAtBoundary s)) = v at hrotated ⊢
  split
  next d _ => exact (Unhurried.of_young (enterStopping_within c d v) fun hy => hy.enterStopping c d).after hrotated
  next => exact (Unhurried.of_within ((putChan_within c _ v).seq (placeChan_within true c _) (k := { dma := true }))).after hrotated
  all_goals exact hrotated

theorem continueDma_unhurried (c : Chan) (tc : Bool) : Unhurried s (continueDma c tc s) :=
  .ite (fun _ => ⟨rfl, rfl, rfl, rfl, id, id⟩) fun _ => (kickBus_unhurried _).after (endDmaTenure_unhurried s c)

theorem endUnitCycle_unhurried (c : Chan) (cyc : Cycle) (bs : List Byte) : Unhurried s (endUnitCycle c cyc bs s) := by
  have hcount (u : State) : Unhurried u (countUnit u) := ⟨rfl, rfl, rfl, rfl, id, id⟩
  have hlast (u : State) : Unhurried u (u.putSlot { u.slot with lastAddr := some cyc.addr }) := ⟨rfl, rfl, rfl, rfl, id, id⟩
  have hperform := Unhurried.of_young (performUnit_within c cyc bs s) fun hy => hy.performUnit c cyc bs
  exact .ite (fun _ => ((kickBus_unhurried _).after (endDmaTenure_unhurried _ c)).after (hcount s))
    fun _ => (((continueDma_unhurried _ c cyc.tc).after (hlast _)).after (hcount _)).after hperform

theorem endRefreshCycle_unhurried (cyc : Cycle) : Unhurried s (endRefreshCycle cyc s) := by
  unfold endRefreshCycle
  dsimp only
  exact .ite (fun _ => (kickBus_unhurried _).after ⟨rfl, rfl, rfl, rfl, fun _ => nofun, id⟩) fun _ => ⟨rfl, rfl, rfl, rfl, id, id⟩

/-! ## The host path -/

theorem endStream_unhurried (st : Status) (hf : Bool) : Unhurried s (endStream st hf s) := by
  cases hs : s.stream.active with
  | none => simp only [endStream, hs, Unhurried.refl]
  | some r =>
    have hclosed : Unhurried s (streamClosed r s) := by
      refine ⟨rfl, rfl, rfl, rfl, fun hm => ?_, id⟩
      unfold streamClosed
      dsimp only
      split <;> exact hm
    rw [endStream_eq hs]
    exact (Unhurried.of_within (endWith_within ..)).after hclosed

theorem endIfWalked_unhurried : Unhurried s (endIfWalked s) := by
  unfold endIfWalked
  split
  · split
    · exact .ite (fun _ => endStream_unhurried s _ _) fun _ => .refl s
    · exact .refl s
  · exact .refl s

theorem endStep_unhurried (x : Xfer) : Unhurried s (endStep x s) := by
  unfold endStep
  split
  · exact .refl s
  next r _ =>
    dsimp only
    have hput : Unhurried s (s.putActive (some (countStep r x.moved.length x.firstFault))) := .of_within (putActive_within _ s)
    have hentered : Unhurried s (if r.isIn = true then enterBytes r.step x.moved (s.putActive (some (countStep r x.moved.length x.firstFault)))
        else s.putActive (some (countStep r x.moved.length x.firstFault))) :=
      .ite (fun _ => (Unhurried.of_within (enterBytes_within ..)).after hput) fun _ => hput
    generalize (if r.isIn = true then _ else _) = u at hentered ⊢
    exact .ite (fun _ => (endStream_unhurried ..).after hentered) fun _ => .ite (fun _ => (endStream_unhurried ..).after hentered)
      fun _ => ((endIfWalked_unhurried _).after (.of_within (putActive_within _ u))).after hentered

theorem endHostTenure_unhurried (x : Xfer) : Unhurried s (endHostTenure x s) := by
  have hfree : Unhurried s { freeBus s with xfer := none } := ⟨rfl, rfl, rfl, rfl, fun _ => nofun, id⟩
  unfold endHostTenure
  dsimp only
  exact (kickBus_unhurried _).after ((Unhurried.ite (fun _ => endStep_unhurried _ x) fun _ => .of_within (finishSlotRequest_within x _)).after hfree)

theorem endHostCycle_unhurried (cyc : Cycle) (bs : List Byte) : Unhurried s (endHostCycle cyc bs s) := by
  have hlast : Unhurried s (s.putSlot { s.slot with lastAddr := some cyc.addr }) := ⟨rfl, rfl, rfl, rfl, id, id⟩
  unfold endHostCycle
  split
  · exact .refl s
  · exact .ite (fun _ => (endHostTenure_unhurried _ _).after hlast) fun _ => ⟨rfl, rfl, rfl, rfl, id, id⟩

/-! ## The ready limit -/

theorem endCycle_unhurried (cyc : Cycle) (data : BusWord) : Unhurried s (endCycle cyc data s) := by
  unfold endCycle
  split
  · exact endHostCycle_unhurried s _ _
  · exact endUnitCycle_unhurried s _ _ _
  · exact endRefreshCycle_unhurried s _
  · exact .refl s
  · exact .refl s

theorem oweSlotFault_unhurried (k : Cause) (b : Bool) (a : Option Nat) : Unhurried s (oweSlotFault k b a s) := by
  unfold oweSlotFault
  split
  · exact .refl s
  · exact ⟨rfl, rfl, rfl, rfl, id, id⟩

theorem expireCycle_unhurried (cyc : Cycle) : Unhurried s (expireCycle cyc s) := by
  unfold expireCycle
  dsimp only
  split
  · exact (endCycle_unhurried _ _ _).after ⟨rfl, rfl, rfl, rfl, id, id⟩
  · exact endCycle_unhurried ..
  · exact (endCycle_unhurried _ _ _).after (oweSlotFault_unhurried ..)
  · exact .refl s
  · exact .refl s

end

/-- The ready timer of a cycle in progress leaves the other timers as they were. -/
theorem readyExpiry_unhurried {s : State} (h : s.slot.cycle ≠ none) : Unhurried s (readyExpiry s) := by
  unfold readyExpiry
  split
  · exact .ite (fun _ => expireCycle_unhurried s _) fun _ => .refl s
  next hn => exact absurd hn h

end Sys2Proof.Machine
end

section
/-! PROOF. One microsecond with no command waiting (log entries 3 and 40): every timer counts, and the one that reaches its limit acts as the row
of its expiry does. -/

namespace Sys2Proof.Machine

set_option Elab.async false

/-! ## A calm board -/

section

variable {s : State} (h : Calm s)

include h

theorem Calm.pending : s.pending = [] := h.1

theorem Calm.refresh : refreshRuns s = true → s.refresh.timer + 1 < setRefreshPeriod s.settings := h.2.1

theorem Calm.unopened : ∀ c, (s.stage c).opened = none := h.2.2

end

theorem step_idle {s : State} (h : s.pending = []) : step s = .next (tick s) := by rw [step, h]

/-! ## What counting leaves of timers that do not run -/

theorem SlotEngine.idle_ready {sl : SlotEngine} (f : ReadyTimer → ReadyTimer) (p : Option Pulse) (h : sl.readyTimer = none) :
    { sl with readyTimer := sl.readyTimer.map f, pulse := p } = { sl with pulse := p } := by
  obtain ⟨⟩ := sl
  cases h
  rfl

theorem SlotEngine.idle_pulse {sl : SlotEngine} (g : Pulse → Pulse) (r : Option ReadyTimer) (h : sl.pulse = none) :
    { sl with readyTimer := r, pulse := sl.pulse.map g } = { sl with readyTimer := r } := by
  obtain ⟨⟩ := sl
  cases h
  rfl

theorem MasterPort.idle_held {mp : MasterPort} (f : Stretched → Stretched) (h : mp.stretched = none) :
    { mp with stretched := mp.stretched.map f } = mp := by
  obtain ⟨⟩ := mp
  cases h
  rfl

theorem PerChan.ofFn_eq {α : Type} {f : Chan → α} {p : PerChan α} (h : ∀ c, f c = p.get c) : PerChan.ofFn f = p := by
  rw [PerChan.ofFn, h, h, h, h, h, h, h]
  rfl

theorem idle_staging {s : State} (h : ∀ c, (s.stage c).opened = none) : PerChan.ofFn (fun c => (s.stage c).aged) = s.staging :=
  PerChan.ofFn_eq fun c => Staging.aged_of_none (h c)

/-- The arbiter once its meter has counted. -/
def meterCounted (s : State) : Arbiter := { s.arb with meter := if s.arb.owner = .master then s.arb.meter + 1 else s.arb.meter }

theorem meterCounted_idle {s : State} (h : s.arb.owner ≠ .master) : meterCounted s = s.arb := by
  rw [meterCounted, if_neg h]

/-- The board once every timer has counted. -/
theorem countTimers_settle (s : State) : countTimers (settle s) = { s with
    queue := s.queue.settled
    slot := { s.slot with readyTimer := s.slot.readyTimer.map ReadyTimer.advance, pulse := s.slot.pulse.map Pulse.advance }
    arb := meterCounted s
    refresh := refreshCounted s s.refresh
    staging := PerChan.ofFn (fun c => (s.stage c).aged)
    master := { s.master with stretched := s.master.stretched.map Stretched.advance } } := rfl

/-- With no ready timer, held cycle or pulse, the meter, the refresh timer and the open runs count. -/
theorem countTimers_clear {s : State} (hr : s.slot.readyTimer = none) (hx : s.master.stretched = none) (hp : s.slot.pulse = none) :
    countTimers (settle s) = { s with
      queue := s.queue.settled, arb := meterCounted s, refresh := refreshCounted s s.refresh
      staging := PerChan.ofFn (fun c => (s.stage c).aged) } := by
  have hslot : { s.slot with readyTimer := s.slot.readyTimer.map ReadyTimer.advance, pulse := s.slot.pulse.map Pulse.advance } = s.slot := by
    rw [SlotEngine.idle_ready _ _ hr, hp, Option.map_none, ← hp]
  rw [countTimers_settle, hslot, MasterPort.idle_held _ hx]

/-! ## Timers that are not due -/

section

variable {s : State}

theorem cycleDue_idle (h : s.slot.readyTimer = none) : cycleDue s = s := by simp [cycleDue, h]

theorem heldDue_idle (h : s.master.stretched = none) : heldDue s = s := by simp [heldDue, h]

theorem masterHoldExpiry_off (h : setMasterHold s.settings = 0) : masterHoldExpiry s = s := by simp [masterHoldExpiry, holdArmed, h]

theorem meterDue_idle (h : s.arb.owner = .master → setMasterHold s.settings = 0 ∨ s.arb.meter < setMasterHold s.settings) : meterDue s = s := by
  unfold meterDue
  split
  next hd =>
    simp only [Bool.and_eq_true, decide_eq_true_eq] at hd
    obtain ⟨ho, hl⟩ := hd
    exact masterHoldExpiry_off ((h ho).resolve_right (Nat.not_lt.2 hl))
  next => rfl

theorem refreshDue_idle (h : refreshRuns s = true → s.refresh.timer < setRefreshPeriod s.settings) : refreshDue s = s := by
  unfold refreshDue refreshExpiry
  split
  next hd => exact if_neg fun hr => Nat.not_lt.2 hd (h hr)
  next => rfl

/-- A run that has counted nothing is due only where ages have no limit. -/
theorem ageDue_idle {c : Chan} (h : (s.stage c).Young) : ageDue c s = s := by
  cases ho : (s.stage c).opened with
  | none => simp [ageDue, ho]
  | some r =>
    have hzero := h r ho
    by_cases hl : setAgeLimit s.settings = 0
    · simp [ageDue, ageExpiry, hl]
    · simp [ageDue, ho, hzero, hl]

theorem forChans_ageDue_idle (h : Young s) : forChans ageDue s = s := by
  simp only [forChans, ageDue_idle (h _)]

theorem pulseDue_idle (h : s.slot.pulse = none) : pulseDue s = s := by simp only [pulseDue, h]

/-- Where neither the refresh timer, a run nor a pulse is due, the rest of the microsecond changes nothing. -/
theorem restDue_idle (hr : refreshRuns s = true → s.refresh.timer < setRefreshPeriod s.settings) (hy : Young s) (hp : s.slot.pulse = none) :
    pulseDue (forChans ageDue (refreshDue s)) = s := by
  rw [refreshDue_idle hr, forChans_ageDue_idle hy, pulseDue_idle hp]

end

theorem young_of_none {s : State} (h : ∀ c, (s.stage c).opened = none) : Young s := fun c r hr => by
  rw [h c] at hr
  cases hr

/-- The refresh timer of a calm board is not due once it has counted. -/
theorem refreshCounted_lt {s v : State} (hc : refreshRuns s = true → s.refresh.timer + 1 < setRefreshPeriod s.settings) (hl : v.slot.line = s.slot.line) (hs : v.settings = s.settings)
    (ht : v.refresh.timer = s.refresh.timer) (hv : refreshRuns v = true) :
    (refreshCounted s v.refresh).timer < setRefreshPeriod v.settings := by
  have hruns : refreshRuns s = true := by rwa [refreshRuns, hl, hs] at hv
  show (if refreshRuns s = true then v.refresh.timer + 1 else v.refresh.timer) < _
  rw [if_pos hruns, ht, hs]
  exact hc hruns

/-! ## The timers, one by one -/

/-- With no timer but the meter and the refresh timer running, and neither at its limit. -/
theorem tick_counts {s : State} (hr : s.slot.readyTimer = none) (hx : s.master.stretched = none) (hp : s.slot.pulse = none) (hc : Calm s)
    (hm : s.arb.owner = .master → setMasterHold s.settings = 0 ∨ s.arb.meter + 1 < setMasterHold s.settings) :
    tick s = { s with queue := s.queue.settled, arb := meterCounted s, refresh := refreshCounted s s.refresh } := by
  rw [tick, countTimers_clear hr hx hp, idle_staging hc.unopened, cycleDue_idle (by exact hr), heldDue_idle (by exact hx), meterDue_idle]
  · exact restDue_idle (refreshCounted_lt (v := s) hc.refresh rfl rfl rfl) (young_of_none (s := s) hc.unopened) hp
  · intro ho
    have ho' : s.arb.owner = .master := ho
    show setMasterHold s.settings = 0 ∨ (if s.arb.owner = .master then s.arb.meter + 1 else s.arb.meter) < _
    rw [if_pos ho']
    exact hm ho'

/-- The ready timer of a cycle in progress reaches its limit. -/
theorem tick_cycleDue {s u : State} {r : ReadyTimer} (hc : Calm s) (hr : s.slot.readyTimer = some r) (hl : r.limit ≤ r.elapsed + 1)
    (hcy : s.slot.cycle ≠ none) (hx : s.master.stretched = none) (hp : s.slot.pulse = none) (ho : s.arb.owner ≠ .master)
    (hu : u = { s with
      queue := s.queue.settled, slot := { s.slot with readyTimer := some { r with elapsed := r.elapsed + 1 } } }) :
    tick s = { readyExpiry u with refresh := refreshCounted s (readyExpiry u).refresh } := by
  have hcounted : countTimers (settle s) = retimed (fun n => if refreshRuns s then n + 1 else n) u := by
    rw [countTimers_settle, SlotEngine.idle_pulse _ _ hp, MasterPort.idle_held _ hx, meterCounted_idle ho, idle_staging hc.unopened, hr, hu]
    rfl
  have hexpired : u.slot.readyTimer.any ReadyTimer.expired = true := by
    rw [hu]
    exact decide_eq_true hl
  have hcycle : u.slot.cycle ≠ none := by
    rw [hu]
    exact hcy
  have hdue : cycleDue (retimed (fun n => if refreshRuns s then n + 1 else n) u) =
      retimed (fun n => if refreshRuns s then n + 1 else n) (readyExpiry u) :=
    (if_pos hexpired).trans (readyExpiry_retimed _ hcycle)
  have hq := readyExpiry_unhurried hcycle
  have hsettings : (readyExpiry u).settings = s.settings := ((readyExpiry_within u).settings rfl).trans (by rw [hu])
  rw [tick, hcounted, hdue, heldDue_idle, meterDue_idle, restDue_idle]
  · rfl
  · exact refreshCounted_lt hc.refresh (hq.line.trans (by rw [hu])) hsettings (hq.timer.trans (by rw [hu]))
  · exact hq.young (young_of_none (by rw [hu]; exact hc.unopened))
  · exact hq.pulse.trans (by rw [hu]; exact hp)
  · intro hown
    have hzero : (readyExpiry u).arb.meter = 0 := hq.meter (by rw [hu]; exact fun h => absurd h ho) hown
    show _ ∨ (readyExpiry u).arb.meter < _
    rw [hzero]
    exact Nat.eq_zero_or_pos _
  · exact hq.stretched.trans (by rw [hu]; exact hx)

/-- The expiry of a held cycle does not look at the arbiter and the refresh generator. -/
theorem expireHeld_beside (a : Arbiter) (r : Refresh) (u : State) :
    expireHeld { u with arb := a, refresh := r } = { expireHeld u with arb := a, refresh := r } := by
  unfold expireHeld
  dsimp only
  cases u.master.stretched with
  | none => rfl
  | some x => dsimp only; cases x.kind <;> rfl

/-- The ready timer of a held cycle reaches its limit. -/
theorem tick_heldDue {s u : State} {x : Stretched} (hc : Calm s) (hr : s.slot.readyTimer = none) (hcy : s.slot.cycle = none)
    (hx : s.master.stretched = some x) (hl : x.timer.limit ≤ x.timer.elapsed + 1) (hp : s.slot.pulse = none)
    (ho : s.arb.owner ≠ .master ∨ setMasterHold s.settings = 0)
    (hu : u = { s with
      queue := s.queue.settled
      master := { s.master with stretched := some { x with timer := { x.timer with elapsed := x.timer.elapsed + 1 } } } }) :
    tick s = { readyExpiry u with
      arb := { (readyExpiry u).arb with
        meter := if s.arb.owner = .master then (readyExpiry u).arb.meter + 1 else (readyExpiry u).arb.meter }
      refresh := refreshCounted s (readyExpiry u).refresh } := by
  have hcounted : countTimers (settle s) = { u with arb := meterCounted s, refresh := refreshCounted s s.refresh } := by
    rw [countTimers_settle, SlotEngine.idle_ready _ _ hr, hp, Option.map_none, ← hp, idle_staging hc.unopened, hx, hu]
    rfl
  have hready : readyExpiry u = expireHeld u := by
    have hcycle : u.slot.cycle = none := by rw [hu]; exact hcy
    simp only [readyExpiry, hcycle]
  have hexpired : u.master.stretched.any (fun x => x.timer.expired) = true := by
    rw [hu]
    exact decide_eq_true hl
  have hdue : heldDue { u with arb := meterCounted s, refresh := refreshCounted s s.refresh } =
      { expireHeld u with arb := meterCounted s, refresh := refreshCounted s s.refresh } :=
    (if_pos hexpired).trans (expireHeld_beside ..)
  have hw := expireHeld_within u
  have hslot : (expireHeld u).slot = s.slot := (hw.slot rfl).trans (by rw [hu])
  have harb : (expireHeld u).arb = s.arb := (hw.arb rfl).trans (by rw [hu])
  have hrefresh : (expireHeld u).refresh = s.refresh := (hw.refresh rfl).trans (by rw [hu])
  have hsettings : (expireHeld u).settings = s.settings := (hw.settings rfl).trans (by rw [hu])
  rw [tick, hcounted, cycleDue_idle (by rw [hu]; exact hr), hdue, hready, harb, hrefresh, meterDue_idle, restDue_idle]
  · rfl
  · show refreshRuns (expireHeld u) = true → (refreshCounted s s.refresh).timer < setRefreshPeriod (expireHeld u).settings
    intro h
    rw [← hrefresh]
    exact refreshCounted_lt hc.refresh (by rw [hslot]) hsettings (by rw [hrefresh]) h
  · exact (Young.of_within (young_of_none (s := u) (by rw [hu]; exact hc.unopened)) hw :)
  · exact (congrArg SlotEngine.pulse hslot).trans hp
  · intro hown
    exact .inl ((congrArg setMasterHold hsettings).trans (ho.resolve_left fun h => h hown))

/-- The master hold meter reaches its limit. -/
theorem tick_meterDue {s u : State} (hc : Calm s) (hr : s.slot.readyTimer = none) (hx : s.master.stretched = none) (hp : s.slot.pulse = none)
    (ho : s.arb.owner = .master) (hl : setMasterHold s.settings ≤ s.arb.meter + 1)
    (hu : u = { s with queue := s.queue.settled, arb := { s.arb with meter := s.arb.meter + 1 } }) :
    tick s = { masterHoldExpiry u with refresh := refreshCounted s (masterHoldExpiry u).refresh } := by
  have hcounted : countTimers (settle s) = { u with refresh := refreshCounted s s.refresh } := by
    rw [countTimers_clear hr hx hp, idle_staging hc.unopened, meterCounted, if_pos ho, hu]
  have hexpired : (decide (u.arb.owner = .master) && decide (setMasterHold u.settings ≤ u.arb.meter)) = true := by
    rw [hu, Bool.and_eq_true, decide_eq_true_eq, decide_eq_true_eq]
    exact ⟨ho, hl⟩
  have hbeside : masterHoldExpiry { u with refresh := refreshCounted s s.refresh } =
      { masterHoldExpiry u with refresh := refreshCounted s s.refresh } := by
    unfold masterHoldExpiry
    split
    next h => rw [if_pos (by exact h)]; rfl
    next h => rw [if_neg (by exact h)]
  have hdue : meterDue { u with refresh := refreshCounted s s.refresh } =
      { masterHoldExpiry u with refresh := refreshCounted s s.refresh } := (if_pos hexpired).trans hbeside
  have hw := masterHoldExpiry_within u
  have hslot : (masterHoldExpiry u).slot = s.slot := (hw.slot rfl).trans (by rw [hu])
  have hrefresh : (masterHoldExpiry u).refresh = s.refresh := (hw.refresh rfl).trans (by rw [hu])
  rw [tick, hcounted, cycleDue_idle (by rw [hu]; exact hr), heldDue_idle (by rw [hu]; exact hx), hdue, hrefresh, restDue_idle]
  · show refreshRuns (masterHoldExpiry u) = true → (refreshCounted s s.refresh).timer < setRefreshPeriod (masterHoldExpiry u).settings
    intro h
    rw [← hrefresh]
    exact refreshCounted_lt hc.refresh (by rw [hslot]) ((hw.settings rfl).trans (by rw [hu])) (by rw [hrefresh]) h
  · exact (Young.of_within (young_of_none (s := u) (by rw [hu]; exact hc.unopened)) hw :)
  · exact (congrArg SlotEngine.pulse hslot).trans hp

theorem refreshExpiry_pulse (s : State) : (refreshExpiry s).slot.pulse = s.slot.pulse := by
  unfold refreshExpiry
  dsimp only
  split
  · split
    · exact (kickBus_line _).2.2
    · split <;> rfl
  · rfl

/-- The refresh timer reaches its period. -/
theorem tick_refreshDue {s u : State} (hn : ∀ c, (s.stage c).opened = none) (hr : s.slot.readyTimer = none) (hx : s.master.stretched = none)
    (hp : s.slot.pulse = none) (ho : s.arb.owner ≠ .master) (hruns : refreshRuns s = true)
    (hl : setRefreshPeriod s.settings ≤ s.refresh.timer + 1)
    (hu : u = { s with queue := s.queue.settled, refresh := { s.refresh with timer := s.refresh.timer + 1 } }) :
    tick s = refreshExpiry u := by
  have hcounted : countTimers (settle s) = u := by
    rw [countTimers_clear hr hx hp, idle_staging hn, meterCounted_idle ho, refreshCounted, if_pos hruns, hu]
  have hdue : refreshDue u = refreshExpiry u := if_pos (by rw [hu]; exact hl)
  have hyoung : Young (refreshExpiry u) := Young.of_within (young_of_none (s := u) (by rw [hu]; exact hn)) (refreshExpiry_within u)
  rw [tick, hcounted, cycleDue_idle (by rw [hu]; exact hr), heldDue_idle (by rw [hu]; exact hx),
    meterDue_idle (by rw [hu]; exact fun h => absurd h ho), hdue, forChans_ageDue_idle hyoung,
    pulseDue_idle ((refreshExpiry_pulse u).trans (by rw [hu]; exact hp))]

/-- Of all the channels only `c` has a turn that acts. -/
theorem forChans_single {f : Chan → State → State} {c : Chan} {s : State} (hs : ∀ d, d ≠ c → f d s = s)
    (ht : ∀ d, d ≠ c → f d (f c s) = f c s) : forChans f s = f c s := by
  cases c <;> simp only [forChans, hs, ht, ne_eq, reduceCtorEq, not_false_eq_true]

/-- The age of an open run reaches its limit. -/
theorem tick_ageDue {s u : State} {c : Chan} {r : Run} (hc : Calm { s with staging := s.staging.put c { s.stage c with opened := none } })
    (hr : s.slot.readyTimer = none) (hx : s.master.stretched = none) (hp : s.slot.pulse = none) (ho : s.arb.owner ≠ .master)
    (hopen : (s.stage c).opened = some r) (hl : setAgeLimit s.settings ≤ r.age + 1)
    (hu : u = { s with
      queue := s.queue.settled, refresh := refreshCounted s s.refresh
      staging := s.staging.put c { s.stage c with opened := some { r with age := r.age + 1 } } }) :
    tick s = ageExpiry c u := by
  have hother : ∀ d, d ≠ c → (s.stage d).opened = none := fun d hd => by
    have h := hc.unopened d
    rwa [State.stage, PerChan.get_put, if_neg hd] at h
  have haged : PerChan.ofFn (fun d => (s.stage d).aged) = s.staging.put c { s.stage c with opened := some { r with age := r.age + 1 } } := by
    refine PerChan.ofFn_eq fun d => ?_
    rw [PerChan.get_put]
    split
    next hd =>
      subst hd
      rw [Staging.aged, hopen]
      rfl
    next hd => exact Staging.aged_of_none (hother d hd)
  have hcounted : countTimers (settle s) = u := by rw [countTimers_clear hr hx hp, haged, meterCounted_idle ho, hu]
  have hown : (u.stage c).opened = some { r with age := r.age + 1 } := by
    rw [hu, State.stage, PerChan.get_put, if_pos rfl]
  have hyoung : ∀ d, d ≠ c → (u.stage d).Young := fun d hd => by
    have hd' : (u.stage d).opened = none := by
      rw [hu, State.stage, PerChan.get_put, if_neg hd]
      exact hother d hd
    intro r' hr'
    rw [hd'] at hr'
    cases hr'
  have hdue : ageDue c u = ageExpiry c u := if_pos (by rw [hown]; exact decide_eq_true (by rw [hu]; exact hl))
  have honly : OnlyChan c u (ageExpiry c u) := .ite (.flushDemand c u) (.refl c u)
  have hrefresh : refreshRuns u = true → u.refresh.timer < setRefreshPeriod u.settings := by
    rw [hu]
    exact refreshCounted_lt (v := s) hc.refresh rfl rfl rfl
  have hall : forChans ageDue u = ageExpiry c u :=
    (forChans_single (fun d hd => ageDue_idle (hyoung d hd))
      fun d hd => ageDue_idle (by rw [hdue, honly.stage d hd]; exact hyoung d hd)).trans hdue
  rw [tick, hcounted, cycleDue_idle (by rw [hu]; exact hr), heldDue_idle (by rw [hu]; exact hx),
    meterDue_idle (by rw [hu]; exact fun h => absurd h ho), refreshDue_idle hrefresh, hall,
    pulseDue_idle ((congrArg SlotEngine.pulse (honly.within.slot rfl)).trans (by rw [hu]; exact hp))]

/-- The reset timer or the settle timer counts. -/
theorem tick_pulseDue {s u : State} {p : Pulse} (hc : Calm s) (hr : s.slot.readyTimer = none) (hx : s.master.stretched = none)
    (ho : s.arb.owner ≠ .master) (hp : s.slot.pulse = some p)
    (hu : u = { s with
      queue := s.queue.settled, refresh := refreshCounted s s.refresh
      slot := { s.slot with pulse := some { p with elapsed := p.elapsed + 1 } } }) : tick s = pulseDue u := by
  have hcounted : countTimers (settle s) = u := by
    rw [countTimers_settle, SlotEngine.idle_ready _ _ hr, MasterPort.idle_held _ hx, meterCounted_idle ho, idle_staging hc.unopened, hp, hu]
    rfl
  have hrefresh : refreshRuns u = true → u.refresh.timer < setRefreshPeriod u.settings := by
    rw [hu]
    exact refreshCounted_lt (v := s) hc.refresh rfl rfl rfl
  rw [tick, hcounted, cycleDue_idle (by rw [hu]; exact hr), heldDue_idle (by rw [hu]; exact hx),
    meterDue_idle (by rw [hu]; exact fun h => absurd h ho), refreshDue_idle hrefresh,
    forChans_ageDue_idle (young_of_none (s := u) (by rw [hu]; exact hc.unopened))]

/-- What the count of a pulse comes to, by the state of the line. -/
theorem pulseDue_cases {u : State} {p : Pulse} (hp : u.slot.pulse = some p) :
    (u.slot.line = .asserted → pulseDue u = if microseconds p.durationMs ≤ p.elapsed then releaseLine u else u) ∧
    (u.slot.line = .settling → pulseDue u = if microseconds p.settleMs ≤ p.elapsed then settleEnd u else u) := by
  refine ⟨fun hl => ?_, fun hl => ?_⟩ <;> simp only [pulseDue, hp, hl]

/-- Settles O2: a timer that is not due changes nothing, and one that is acts on the board as its own row does. -/
theorem idleStepCountsOneMicrosecond : Obligations.IdleStepCountsOneMicrosecond := by
  refine ⟨fun s hr hx hp hc hm => ?_, fun s v r hc hr hl hcy hx hp ho hv => ?_, fun s v x hc hr hcy hx hl hp ho hv => ?_,
    fun s v hc hr hx hp ho hl hv => ?_, fun s v hpend hn hr hx hp ho hruns hl hv => ?_, fun s v c r hc hr hx hp ho hopen hl hv => ?_,
    fun s u p hc hr hx ho hp hu => ?_⟩
  · exact (step_idle hc.pending).trans (congrArg _ (tick_counts hr hx hp hc hm))
  · cases hv
    exact (step_idle hc.pending).trans (congrArg _ (tick_cycleDue hc hr hl hcy hx hp ho rfl))
  · cases hv
    exact (step_idle hc.pending).trans (congrArg _ (tick_heldDue hc hr hcy hx hl hp ho rfl))
  · cases hv
    exact (step_idle hc.pending).trans (congrArg _ (tick_meterDue hc hr hx hp ho hl rfl))
  · cases hv
    exact (step_idle hpend).trans (congrArg _ (tick_refreshDue hn hr hx hp ho hruns hl rfl))
  · cases hv
    exact (step_idle (s := s) hc.pending).trans (congrArg _ (tick_ageDue hc hr hx hp ho hopen hl rfl))
  · have htick := (step_idle hc.pending).trans (congrArg Host.Outcome.next (tick_pulseDue hc hr hx ho hp hu))
    have hup : u.slot.pulse = some { p with elapsed := p.elapsed + 1 } := by rw [hu]
    have hline : u.slot.line = s.slot.line := by rw [hu]
    obtain ⟨hasserted, hsettling⟩ := pulseDue_cases hup
    rw [hline] at hasserted hsettling
    refine ⟨fun h hl => ?_, fun h hl => ?_, fun h hl => ?_, fun h hl => ?_⟩
    · exact htick.trans (congrArg Host.Outcome.next ((hasserted h).trans (if_pos hl)))
    · exact htick.trans (congrArg Host.Outcome.next ((hsettling h).trans (if_pos hl)))
    · exact htick.trans (congrArg Host.Outcome.next ((hasserted h).trans (if_neg (Nat.not_le.2 hl))))
    · exact htick.trans (congrArg Host.Outcome.next ((hsettling h).trans (if_neg (Nat.not_le.2 hl))))

end Sys2Proof.Machine
end
